-- ==== Sys2Proof/Word.lean ====
section
/-! DEFINITION. The word types of the block: every width is the one `00_scope.md` rule R6 gives. -/

namespace Sys2Proof

/-- A command word (R6, R81): 64 bits, one per command. -/
abbrev CommandWord := BitVec 64

/-- A word of a response (R6, R93). -/
abbrev ResponseWord := BitVec 32

/-- A pulse descriptor on the transmit port (R6, R96). -/
abbrev Descriptor := BitVec 64

/-- A duration in nanoseconds (R6, R25). -/
abbrev Duration := BitVec 32

/-- A Chip Variant code (R6, R91). -/
abbrev VariantCode := BitVec 4

/-- An output line identifier (R6, R23). -/
abbrev LineId := BitVec 8

/-- An LED count or a pixel index (R6, R24, R61). -/
abbrev Count := BitVec 32

/-- One byte: a channel of a pixel, or a byte in wire order (R6, R161). -/
abbrev Byte := BitVec 8

/-- One entry of the Pixel Buffer (R30). -/
abbrev Pixel := BitVec 24

end Sys2Proof
end

