-- ==== Sys2Proof/Syntax.lean ====
section
/-! DEFINITION. The commands of the block (one constructor per row of spec/opcode_table.json) and the
statements of its assembly syntax (`30_encoding.md` rules R81, R98). -/

namespace Sys2Proof

/-- The six commands (R81), each with the operand fields of its format at their widths (R88). -/
inductive Instr where
  /-- CONSTRUCT (R82, R113): create the controller. -/
  | construct (variant : VariantCode) (line : LineId) (count : Count)
  /-- SET_PIXEL (R83, R142): write one pixel. -/
  | setPixel (index : Count) (r g b : Byte)
  /-- GET_PIXEL (R84, R143): read one pixel. -/
  | getPixel (index : Count)
  /-- UPDATE (R85, R165): encode the frame and transmit it once. -/
  | update
  /-- LOOKUP_PROFILE (R86, R115): read one row of the Timing Profile Table. -/
  | lookupProfile (variant : VariantCode)
  /-- GET_CONFIG (R87, R116): read back every configuration and profile register. -/
  | getConfig
  deriving DecidableEq, Repr

/-- One line of assembly (R98), its operands still plain numbers, in the order the syntax writes
them. A variant name is already its code (R91, R99). -/
inductive AsmStmt where
  | construct (variant count line : Nat)
  | setPixel (index r g b : Nat)
  | getPixel (index : Nat)
  | update
  | lookupProfile (variant : Nat)
  | getConfig
  /-- `.word64 <value>`: any 64-bit word, reserved ones too. -/
  | word64 (value : Nat)
  deriving DecidableEq, Repr

end Sys2Proof
end

