-- ==== Sys2Proof/WellFormed.lean ====
section
/-! DEFINITION. Well-formedness. A command's operands are bit vectors of exactly the widths of its
format, so every term of `Instr` is a command (log 1). What can be ill formed is a line of
assembly: "An operand out of its range is an assembly error, never a wrapped value"
(`30_encoding.md` rule R98). -/

namespace Sys2Proof

/-- Every value of every operand field is a legal operand (R66, R88, R91): unrecognized variant
codes and out-of-range indices decode, and are answered by the command. -/
def Instr.wellFormed : Instr → Bool
  | .construct _ _ _ => true
  | .setPixel _ _ _ _ => true
  | .getPixel _ => true
  | .update => true
  | .lookupProfile _ => true
  | .getConfig => true

/-- `<variant>` is a number 0 to 15 (R98). -/
def AsmStmt.variantOk (n : Nat) : Bool := n < 2 ^ 4

/-- `<line>`, `<r>`, `<g>`, `<b>` are 0 to 255 (R98). -/
def AsmStmt.byteOk (n : Nat) : Bool := n < 2 ^ 8

/-- `<count>` and `<index>` are 0 to 2^32 - 1 (R98). -/
def AsmStmt.countOk (n : Nat) : Bool := n < 2 ^ 32

/-- Every operand of the line is in its range (R98). -/
def AsmStmt.wellFormed : AsmStmt → Bool
  | .construct v c l => AsmStmt.variantOk v && AsmStmt.countOk c && AsmStmt.byteOk l
  | .setPixel i r g b =>
      AsmStmt.countOk i && AsmStmt.byteOk r && AsmStmt.byteOk g && AsmStmt.byteOk b
  | .getPixel i => AsmStmt.countOk i
  | .update => true
  | .lookupProfile v => AsmStmt.variantOk v
  | .getConfig => true
  | .word64 v => v < 2 ^ 64

end Sys2Proof
end

