-- ==== Sys2Proof/Decode.lean ====
section
/-! DEFINITION. Decoding a command word, total on all 64-bit words (`30_encoding.md` rule R89), and the
encoder of the six formats (rules R82 to R87). -/

namespace Sys2Proof

/-- Why a word is reserved (R90). The block answers both with RESERVED_COMMAND. -/
inductive Reserved where
  /-- An opcode of 0x0 or 0x7 to 0xF. -/
  | opcode
  /-- A legal opcode with a nonzero bit in a field marked "reserved, must be 0". -/
  | field
  deriving DecidableEq, Repr

/-- The field of `width` bits of `w` whose least significant bit is bit `lo`: `w[lo + width - 1 : lo]` in
the notation of `00_scope.md` R7. -/
def bits (w : CommandWord) (lo width : Nat) : BitVec width := w.extractLsb' lo width

/-- The opcode field `OP` (R81). -/
def opcodeOf (w : CommandWord) : BitVec 4 := bits w 60 4

/-- The opcodes 0x1 to 0x6 (R81). -/
def legalOpcode (op : BitVec 4) : Bool := 1 ≤ op.toNat && op.toNat ≤ 6

/-- `decode` of R89, with a name for what makes a word reserved. -/
def decode (w : CommandWord) : Except Reserved Instr :=
  let op := opcodeOf w
  if op = 0x1 ∧ bits w 32 16 = 0 then
    .ok (.construct (bits w 56 4) (bits w 48 8) (bits w 0 32))
  else if op = 0x2 ∧ bits w 56 4 = 0 then
    .ok (.setPixel (bits w 0 32) (bits w 48 8) (bits w 40 8) (bits w 32 8))
  else if op = 0x3 ∧ bits w 32 28 = 0 then .ok (.getPixel (bits w 0 32))
  else if op = 0x4 ∧ bits w 0 60 = 0 then .ok .update
  else if op = 0x5 ∧ bits w 0 56 = 0 then .ok (.lookupProfile (bits w 56 4))
  else if op = 0x6 ∧ bits w 0 60 = 0 then .ok .getConfig
  else if legalOpcode op then .error .field
  else .error .opcode

/-- The opcode of a command (R81). -/
def opcodeValue : Instr → BitVec 4
  | .construct _ _ _ => 0x1
  | .setPixel _ _ _ _ => 0x2
  | .getPixel _ => 0x3
  | .update => 0x4
  | .lookupProfile _ => 0x5
  | .getConfig => 0x6

/-- The word of a command: its format's fields from the most significant bit down, the reserved
fields 0 (R82 to R87). -/
def encode : Instr → CommandWord
  | .construct variant line count => 0x1#4 ++ variant ++ line ++ 0#16 ++ count
  | .setPixel index r g b => 0x2#4 ++ 0#4 ++ r ++ g ++ b ++ index
  | .getPixel index => 0x3#4 ++ 0#28 ++ index
  | .update => 0x4#4 ++ 0#60
  | .lookupProfile variant => 0x5#4 ++ variant ++ 0#56
  | .getConfig => 0x6#4 ++ 0#60

/-- The 64-bit word whose bits, numbered as spec/opcode_table.json numbers them, are the low
`nbits` bits of `w`; the bits above are 0. A command is one whole word (R64), so no byte order
arises. -/
def tableWord (nbits w : Nat) : CommandWord := BitVec.ofNat 64 (w % 2 ^ nbits)

/-- What the decoder reads from an instruction of the opcode table whose bits are `w`. No command
is longer than 64 bits (R92). -/
def decodeTableWord (nbits w : Nat) : Option Instr :=
  if nbits ≤ 64 then (decode (tableWord nbits w)).toOption else none

end Sys2Proof
end

