-- ==== Sys2Proof/Config.lean ====
section
/-! DEFINITION. What an implementation fixes. The Timing Profile Table, which the spec gives, is in
Sys2Proof/Machine/Timing.lean. -/

namespace Sys2Proof

/-- `MAX_LEDS`, the capacity of the Pixel Buffer: "OPEN: a natural number,
0 <= MAX_LEDS <= 2^32 - 1" (`00_scope.md` R6, D8). No body: nothing can rest on its value.
It is only the value `State.reset` gives the field `maxLeds` (log 2). -/
opaque Config.maxLeds : Count

end Sys2Proof
end

