-- ==== Sys2Proof/Machine/State.lean ====
section
/-! DEFINITION. The state of the block as plain data (`10_state.md` rule R20), its ports
(`30_encoding.md` rule R80), the reasons a step can stop, and the state after reset. -/

namespace Sys2Proof.Machine

/-- `STATE` (R21). The register's fourth code, 3, is "never held" and has no constructor (log 14). -/
inductive Lifecycle where
  /-- No controller exists. -/
  | uninit
  /-- Constructed, no update in flight. -/
  | ready
  /-- An UPDATE has issued its transmit request and awaits the adapter's response. -/
  | busy
  deriving DecidableEq, Repr

/-- The result codes a response can carry (R95). -/
inductive ResultCode where
  | ok
  | unsupportedVariant
  | allocationFailure
  | indexOutOfRange
  | transmitFailure
  | illegalState
  | reservedCommand
  deriving DecidableEq, Repr

/-- A Timing Profile (R12, R25): five durations and the byte count. -/
structure Profile where
  t0High : Duration
  t0Low : Duration
  t1High : Duration
  t1Low : Duration
  resetGap : Duration
  bytesPerLed : Byte
  deriving DecidableEq, Repr

/-- An Encoded Pulse: high for `high` ns, then low for `low` ns (R9, R96). -/
structure Pulse where
  high : Duration
  low : Duration
  deriving DecidableEq, Repr

/-- A response: the status word, then the payload words (R93, R94). -/
structure Response where
  status : ResponseWord
  payload : List ResponseWord
  deriving DecidableEq, Repr

/-- A transmit request `TxReq(line, wait, pulses)` (R97). -/
structure TxReq where
  line : LineId
  wait : Bool
  pulses : List Descriptor
  deriving DecidableEq, Repr

/-- The adapter's answer `TxResp(ok)` (R97). The port carries the bit alone; `request`, the number
of the request it answers (0 for the first in `txReqs`), is the model's tag for "its request"
(R171, R232; log 9). -/
structure TxResp where
  request : Nat
  ok : Bool
  deriving DecidableEq, Repr

/-- The hidden state while BUSY (R34): "the fact that one transmit is pending, and the UPDATE
command awaiting its response". `request` numbers the request awaited (log 9). -/
structure Pending where
  command : Instr
  request : Nat
  deriving DecidableEq, Repr

/-- The reset input (R230). A reset can land between commands or meet one being performed (R204,
R232; log 7). -/
inductive ResetIn where
  | released
  /-- Asserted while no command other than a waiting UPDATE is being performed. -/
  | betweenCommands
  /-- Asserted after the block has taken the next waiting command and before its response. -/
  | duringCommand
  deriving DecidableEq, Repr

/-- The Pixel Buffer's storage, as (index, entry) pairs in one canonical form (`Memory.wf`): indices
strictly rising, and no entry equal to what an unlisted index reads as. The block has no bytes
to address: every access moves one whole 24-bit entry (R60, R65; log 4). -/
abbrev Memory := List (Nat × Pixel)

/-- The whole state. The first twelve fields are the spec's (R20); `maxLeds` is the hardware
parameter of R6; the rest are the ports of R80 and the records of what left through them. -/
structure State where
  /-- `STATE` (R21). -/
  state : Lifecycle
  /-- `VARIANT` (R22). -/
  variant : VariantCode
  /-- `LINE` (R23). -/
  line : LineId
  /-- `LED_COUNT` (R24). -/
  ledCount : Count
  /-- `T0H` (R25). -/
  t0h : Duration
  /-- `T0L` (R25). -/
  t0l : Duration
  /-- `T1H` (R25). -/
  t1h : Duration
  /-- `T1L` (R25). -/
  t1l : Duration
  /-- `RESET_GAP` (R25). -/
  resetGap : Duration
  /-- `BPL` (R25). -/
  bpl : Byte
  /-- `PIX` (R30). -/
  pix : Memory
  /-- Transmit pending (R34). -/
  pending : Option Pending
  /-- `MAX_LEDS` (R6): no command and no reset writes it (log 2). -/
  maxLeds : Count
  /-- The command port: words issued and not yet taken, oldest first (R70, R234; log 5). -/
  cmdPort : List CommandWord
  /-- The transmit port inward: the adapter's answers, in the order they come (R171; log 9). An answer
  may stand here before its request is sent (log 21). -/
  txPort : List TxResp
  /-- The reset input (R230). -/
  resetIn : ResetIn
  /-- The response port: every response sent, oldest first (R241; log 12). -/
  responses : List Response
  /-- The transmit port outward: every request sent, oldest first (R241; log 12). -/
  txReqs : List TxReq
  /-- The numbers of the requests that a reset abandoned and that are not answered yet (R232, I15;
  log 11). -/
  abandoned : List Nat
  /-- How many of `responses` were sent before the reset that began the run (R241; log 12). -/
  responsesBefore : Nat
  /-- How many of `txReqs` were sent before the reset that began the run (R241; log 12). -/
  txReqsBefore : Nat
  deriving DecidableEq, Repr

/-- Why the machine stops with a fault. -/
inductive Fault where
  /-- Raised by the wait for the adapter (`awaitTx`), never by a command: an answer met in BUSY that is
  neither to the pending request nor to an abandoned one, which R171 lists under "assumed never".
  Safe: the spec gives no effect, and the model proves nothing of what comes after (log 10). An
  answer that came before its request is another case, and does not stop (log 21). -/
  | adapterContract
  deriving DecidableEq, Repr

/-- Why an instruction has no meaning. -/
inductive Refusal where
  /-- Raised by `exec` for an instruction that has no meaning yet; every instruction of this model has
  one, so nothing raises it. Safe. -/
  | notModelled (mnemonic : String)
  deriving DecidableEq, Repr

/-- The state right after reset (R230), for a block whose capacity is the constant
`Config.maxLeds`. The Pixel Buffer lists nothing (R31: unspecified; log 3), and nothing waits on or
has left any port (log 5, 9, 12). -/
def State.reset : State where
  state := .uninit
  variant := 0
  line := 0
  ledCount := 0
  t0h := 0
  t0l := 0
  t1h := 0
  t1l := 0
  resetGap := 0
  bpl := 0
  pix := []
  pending := none
  maxLeds := Config.maxLeds
  cmdPort := []
  txPort := []
  resetIn := .released
  responses := []
  txReqs := []
  abandoned := []
  responsesBefore := 0
  txReqsBefore := 0

end Sys2Proof.Machine
end

