-- ==== Sys2Proof/Machine/Flags.lean ====
section
/-! DEFINITION. The block has no condition flags and no sticky status: "Every command's outcome is the
result code in its own response" (`10_state.md` rule R35). This file holds what stands in their
place: the codes and the status word (`30_encoding.md` rules R93, R95). -/

namespace Sys2Proof.Machine

/-- The code of `STATE` (R21). -/
def Lifecycle.code : Lifecycle → BitVec 2
  | .uninit => 0
  | .ready => 1
  | .busy => 2

/-- The numeric result code (R95). -/
def ResultCode.code : ResultCode → BitVec 4
  | .ok => 0
  | .unsupportedVariant => 1
  | .allocationFailure => 2
  | .indexOutOfRange => 3
  | .transmitFailure => 4
  | .illegalState => 5
  | .reservedCommand => 6

/-- The status word (R93): `RESULT` in [3:0], `STATE` in [9:8], every other bit 0. -/
def statusWord (r : ResultCode) (st : Lifecycle) : ResponseWord :=
  0#22 ++ st.code ++ 0#4 ++ r.code

/-- The lifecycle state a 2-bit code names; 3 names none (R21). -/
def lifecycleOf (c : BitVec 2) : Option Lifecycle :=
  if c = 0 then some .uninit else if c = 1 then some .ready else if c = 2 then some .busy else none

/-- The result a 4-bit code names; 7 to 15 name none (R95). -/
def resultOf (c : BitVec 4) : Option ResultCode :=
  if c = 0 then some .ok
  else if c = 1 then some .unsupportedVariant
  else if c = 2 then some .allocationFailure
  else if c = 3 then some .indexOutOfRange
  else if c = 4 then some .transmitFailure
  else if c = 5 then some .illegalState
  else if c = 6 then some .reservedCommand
  else none

/-- A host's reading of a status word. A word with a code that is never produced or a nonzero reserved
bit is refused (I14); so is BUSY, which a response never carries (R93). -/
def readStatus (w : ResponseWord) : Option (ResultCode × Lifecycle) :=
  if w.extractLsb' 10 22 = 0 ∧ w.extractLsb' 4 4 = 0 then
    match resultOf (w.extractLsb' 0 4), lifecycleOf (w.extractLsb' 8 2) with
    | some r, some .uninit => some (r, .uninit)
    | some r, some .ready => some (r, .ready)
    | _, _ => none
  else none

/-- A response the block can send (R93, R94): a status word of the format with a state that is not BUSY,
and no payload unless the result is OK. -/
def Response.legal (r : Response) : Bool :=
  match readStatus r.status with
  | some (.ok, _) => true
  | some (_, _) => r.payload = []
  | none => false

end Sys2Proof.Machine
end

