-- ==== Sys2Proof/Machine/Timing.lean ====
section
/-! DEFINITION. The Timing Profile Table, the one place its values stand (`40_configuration.md` rules R110
to R112; D33: "a model holds it as a configuration constant TIMING_TABLE so a corrected table changes
one definition"). -/

namespace Sys2Proof.Machine

/-- The variant codes that name a row (R91). -/
def variantNull : VariantCode := 0

/-- Variant A (R91). -/
def variantA : VariantCode := 1

/-- Variant B (R91). -/
def variantB : VariantCode := 2

/-- Variant C (R91). -/
def variantC : VariantCode := 3

/-- Variant GENERIC (R91). -/
def variantGeneric : VariantCode := 4

/-- The Null row of zeros (R110), which the profile registers hold in UNINIT (R25). -/
def nullProfile : Profile := ⟨0, 0, 0, 0, 0, 0⟩

/-- `row(v)` of R112 over the rows of R110: codes 5 to 15 have no row, and there is no fallback. The
values are the source's as printed, unaudited (log 15). -/
def timingRow (v : VariantCode) : Option Profile :=
  if v = variantNull then some nullProfile
  else if v = variantA then some ⟨350, 800, 700, 600, 50000, 3⟩
  else if v = variantB then some ⟨300, 1090, 1090, 320, 280000, 3⟩
  else if v = variantC then some ⟨400, 850, 800, 450, 50000, 3⟩
  else if v = variantGeneric then some ⟨400, 850, 850, 400, 50000, 3⟩
  else none

/-- `supported(v)` of R112: Null is not supported. -/
def supported (v : VariantCode) : Bool :=
  v = variantA || v = variantB || v = variantC || v = variantGeneric

/-- The row CONSTRUCT latches: `TIMING_TABLE(v)` of a supported variant (R113). -/
def supportedRow (v : VariantCode) : Option Profile :=
  if supported v then timingRow v else none

/-- The payload of LOOKUP_PROFILE (R94, R115): `zext_32` of the byte count comes last. -/
def Profile.words (p : Profile) : List ResponseWord :=
  [p.t0High, p.t0Low, p.t1High, p.t1Low, p.resetGap, p.bytesPerLed.setWidth 32]

end Sys2Proof.Machine
end

