-- ==== Sys2Proof/Machine/Operands.lean ====
section
/-! DEFINITION. Operand forms: pixel entries and their channels (`10_state.md` rule R30), index validity
(`20_memory.md` rule R61), the shape file (`10_state.md` rule R29), pulse descriptors (`30_encoding.md`
rule R96). Commands have no operands beyond the fields of their word (R88). -/

namespace Sys2Proof.Machine

/-- `{r, g, b}`, the storage order of an entry (R30, R62, R142). -/
def packPixel (r g b : Byte) : Pixel := r ++ g ++ b

/-- `red(px) = px[23:16]` (R141). -/
def red (px : Pixel) : Byte := px.extractLsb' 16 8

/-- `green(px) = px[15:8]` (R141). -/
def green (px : Pixel) : Byte := px.extractLsb' 8 8

/-- `blue(px) = px[7:0]` (R141). -/
def blue (px : Pixel) : Byte := px.extractLsb' 0 8

/-- The index test of SET_PIXEL and GET_PIXEL (R61, R142, R143): unsigned, no wrap. -/
def indexInRange (index : Count) (s : State) : Bool := index < s.ledCount

/-- An index names a pixel exactly in READY or BUSY and below `LED_COUNT` (R61). -/
def namesPixel (index : Count) (s : State) : Bool :=
  (s.state = .ready || s.state = .busy) && indexInRange index s

/-- The profile registers as one profile (R25). -/
def State.profile (s : State) : Profile := ⟨s.t0h, s.t0l, s.t1h, s.t1l, s.resetGap, s.bpl⟩

/-- `shape[k]` (R29), with `k = {is_last, bit}`: a combinational function of the profile registers. -/
def shape (s : State) (k : BitVec 2) : Pulse :=
  ⟨if k.getLsbD 0 then s.t1h else s.t0h,
   if k.getLsbD 1 then s.resetGap else if k.getLsbD 0 then s.t1l else s.t0l⟩

/-- The index `{is_last, bit}` of the shape file (R29). -/
def shapeIndex (isLast bit : Bool) : BitVec 2 := BitVec.ofBool isLast ++ BitVec.ofBool bit

/-- The descriptor `{HIGH[63:32], LOW[31:0]}` of a pulse (R96). -/
def Pulse.descriptor (p : Pulse) : Descriptor := p.high ++ p.low

/-- The payload of GET_CONFIG (R94, R116). -/
def State.configWords (s : State) : List ResponseWord :=
  [s.variant.setWidth 32, s.line.setWidth 32, s.ledCount,
   s.t0h, s.t0l, s.t1h, s.t1l, s.resetGap, s.bpl.setWidth 32]

end Sys2Proof.Machine
end

