-- ==== Sys2Proof/Machine/Ops.lean ====
section
/-! DEFINITION. The named operations every meaning is written with (`00_scope.md` rule R10): the Pixel
Buffer, `respond` and `raise`, latching a profile, the transmit port, and the reset event. -/

namespace Sys2Proof.Machine

/-! ### The Pixel Buffer -/

/-- What an index nothing is listed at reads as. R31 leaves `PIX` unspecified at reset, and no command can
see it before CONSTRUCT zeroes it (log 3). CONSTRUCT's zeros are entries not listed, so this value
is the (0, 0, 0) of R140. -/
def Memory.unlisted : Pixel := 0

/-- The entry at an index. -/
def Memory.read : Memory → Nat → Pixel
  | [], _ => Memory.unlisted
  | (k, v) :: rest, i => if k = i then v else Memory.read rest i

/-- Put an entry at an index, keeping the canonical form. -/
def Memory.write : Memory → Nat → Pixel → Memory
  | [], i, v => if v = Memory.unlisted then [] else [(i, v)]
  | (k, x) :: rest, i, v =>
    if i < k then
      if v = Memory.unlisted then (k, x) :: rest else (i, v) :: (k, x) :: rest
    else if i = k then
      if v = Memory.unlisted then rest else (i, v) :: rest
    else (k, x) :: Memory.write rest i v

/-- Zero every entry below `n`. -/
def Memory.clearBelow (m : Memory) (n : Nat) : Memory := m.filter fun c => n ≤ c.1

/-- The canonical form: indices strictly rising, nothing listed that reads the same unlisted. -/
abbrev Memory.wf (m : Memory) : Prop :=
  m.Pairwise (fun a b => a.1 < b.1) ∧ ∀ c ∈ m, c.2 ≠ Memory.unlisted

/-- `PixRead(i)` (R141). -/
def pixRead (s : State) (i : Nat) : Pixel := s.pix.read i

/-- `PixWrite(i, px)` (R141): replaces all 24 bits of entry `i`. -/
def pixWrite (i : Nat) (px : Pixel) (s : State) : State := { s with pix := s.pix.write i px }

/-- `Allocate_ok(count)` (R140). -/
def allocateOk (count : Count) (s : State) : Bool := count ≤ s.maxLeds

/-- `Allocate(count)` (R140): `PIX[0 .. count - 1]` become (0, 0, 0), the other entries stay. -/
def allocate (count : Count) (s : State) : State :=
  { s with pix := s.pix.clearBelow count.toNat }

/-- `[PixRead(0), ..., PixRead(n - 1)]` with `n = LED_COUNT` (R164): the visible entries (R30). -/
def visiblePixels (s : State) : List Pixel := (List.range s.ledCount.toNat).map (pixRead s)

/-! ### Responses -/

/-- `respond(result, payload)` (R10, R93): one response, its `STATE` field the state after the
command. -/
def respond (r : ResultCode) (payload : List ResponseWord) (s : State) : State :=
  { s with responses := s.responses ++ [⟨statusWord r s.state, payload⟩] }

/-- `raise E` (R10, R200, R206): the whole of what an error does. It answers with the code and no payload,
and leaves every register and the Pixel Buffer as they were (R202). There is nothing to return
from (R207). -/
def raiseError (e : ResultCode) (s : State) : State := respond e [] s

/-! ### Configuration -/

/-- Write the profile registers (R113). -/
def latchProfile (p : Profile) (s : State) : State :=
  { s with
    t0h := p.t0High, t0l := p.t0Low, t1h := p.t1High, t1l := p.t1Low
    resetGap := p.resetGap, bpl := p.bytesPerLed }

/-- Write `VARIANT`, `LINE` and `LED_COUNT` (R113). -/
def latchConfig (variant : VariantCode) (line : LineId) (count : Count) (s : State) : State :=
  { s with variant := variant, line := line, ledCount := count }

/-! ### The transmit port -/

/-- `TxIssue(line, wait, pulses)` (R10, R171) for the command given: the request is sent, and the block
holds that one transmit is pending and which command awaits its response (R34). The request is
handed over whole; nothing of the pulses is kept. -/
def txIssue (command : Instr) (line : LineId) (wait : Bool) (pulses : List Descriptor) (s : State) :
    State :=
  { s with
    pending := some ⟨command, s.txReqs.length⟩
    txReqs := s.txReqs ++ [⟨line, wait, pulses⟩] }

/-- What an UPDATE does when its `TxAwait()` returns `ok` (R165): READY again, no transmit pending,
and one response. -/
def txFinish (ok : Bool) (s : State) : State :=
  respond (if ok then .ok else .transmitFailure) [] { s with state := .ready, pending := none }

/-- The answer is to the request the block awaits. The number alone decides: an answer that stood on the
port before the request was sent is to it all the same (DESIGN CHOICE, log 21). -/
def answersPending (r : TxResp) (s : State) : Bool := s.pending.any fun p => p.request = r.request

/-- The answer is to a request a reset abandoned: "a `TxResp` that arrives later for its request is
ignored" (R232). -/
def answersAbandoned (r : TxResp) (s : State) : Bool := s.abandoned.contains r.request

/-! ### Reset and outputs -/

/-- The reset event (R230): every register to its reset value, no transmit pending, `PIX` not written, no
response to the command it meets (R232). A transmit that was pending becomes an abandoned one,
whose late answer is ignored. The ports are outside the block and keep what they hold (log 6, 12); a new
run begins after what they have recorded so far (R241). -/
def resetEvent (s : State) : State :=
  { s with
    state := .uninit, variant := variantNull, line := 0, ledCount := 0
    t0h := 0, t0l := 0, t1h := 0, t1l := 0, resetGap := 0, bpl := 0
    pending := none
    abandoned := s.abandoned ++ s.pending.toList.map (·.request)
    responsesBefore := s.responses.length
    txReqsBefore := s.txReqs.length }

/-- The `busy` output (R37). -/
def busyOut (s : State) : Bool := s.state = .busy

end Sys2Proof.Machine
end

