-- ==== Sys2Proof/Machine/Configuration.lean ====
section
/-! DEFINITION. The configuration commands: CONSTRUCT, LOOKUP_PROFILE and GET_CONFIG (`40_configuration.md`
rules R113, R115, R116). Each meaning follows its rule's pseudocode line by line. No command is taken
in BUSY (R234), where the pseudocode's own tests apply if `exec` is asked all the same (log 13). -/

namespace Sys2Proof.Machine

/-- CONSTRUCT (R113). The checks run in the order of R203; nothing is written before the last of them. -/
def execConstruct (variant : VariantCode) (line : LineId) (count : Count) (s : State) :
    Host.Outcome State Fault Refusal :=
  .next <|
    if s.state ≠ .uninit then raiseError .illegalState s
    else match supportedRow variant with
      | none => raiseError .unsupportedVariant s
      | some p =>
        if ¬ allocateOk count s then raiseError .allocationFailure s
        else
          respond .ok []
            { allocate count (latchConfig variant line count (latchProfile p s)) with
              state := .ready }

/-- LOOKUP_PROFILE (R115): reads the constant table, not the profile registers, in any state. -/
def execLookupProfile (variant : VariantCode) (s : State) : Host.Outcome State Fault Refusal :=
  .next <|
    match timingRow variant with
    | none => raiseError .unsupportedVariant s
    | some p => respond .ok p.words s

/-- GET_CONFIG (R116): always OK. -/
def execGetConfig (s : State) : Host.Outcome State Fault Refusal :=
  .next (respond .ok s.configWords s)

end Sys2Proof.Machine
end

