-- ==== Sys2Proof/Machine/FrameEncoder.lean ====
section
/-! DEFINITION. The Frame Encoder and UPDATE (`42_frame_encoder.md` rules R160 to R165), and what a pulse
list stands for on the wire (rule R170). The spec's function `encode` is `encodeFrame` here: `encode`
is the command encoder. -/

namespace Sys2Proof.Machine

/-- Step 1 (R161): wire order, green then red then blue per pixel. -/
def serialize (pixels : List Pixel) : List Byte :=
  pixels.flatMap fun px => [green px, red px, blue px]

/-- The pulse of one bit before the patch: `shape[0]` or `shape[1]` (R162). -/
def bitPulse (s : State) (bit : Bool) : Pulse := shape s (shapeIndex false bit)

/-- The eight pulses of a byte, bit 7 first (R162). -/
def bytePulses (s : State) (b : Byte) : List Pulse :=
  [bitPulse s (b.getLsbD 7), bitPulse s (b.getLsbD 6), bitPulse s (b.getLsbD 5),
   bitPulse s (b.getLsbD 4), bitPulse s (b.getLsbD 3), bitPulse s (b.getLsbD 2),
   bitPulse s (b.getLsbD 1), bitPulse s (b.getLsbD 0)]

/-- Step 2 (R162): no carry between bytes, no special pulse at a byte boundary. -/
def expand (s : State) (bytes : List Byte) : List Pulse := bytes.flatMap (bytePulses s)

/-- Step 3 (R163): the last pulse, and only the last, keeps its high-duration and takes `reset_gap` as its
low-duration. An empty sequence stays empty. -/
def patch (s : State) (seq : List Pulse) : List Pulse :=
  match seq.getLast? with
  | none => []
  | some p => seq.dropLast ++ [⟨p.high, s.resetGap⟩]

/-- The spec's `encode()` (R164): a function of the profile registers and the visible pixels alone
(R160). -/
def encodeFrame (s : State) : List Pulse := patch s (expand s (serialize (visiblePixels s)))

/-- UPDATE up to its transmit request (R165): an empty frame is answered at once and sends nothing (D16);
any other goes to BUSY with one request, `wait` always 1 (R171). The rest of the command, from
`TxAwait()` on, is `awaitTx` (log 8). -/
def execUpdate (s : State) : Host.Outcome State Fault Refusal :=
  .next <|
    if s.state ≠ .ready then raiseError .illegalState s
    else match encodeFrame s with
      | [] => respond .ok [] s
      | p :: ps =>
        txIssue .update s.line true ((p :: ps).map Pulse.descriptor) { s with state := .busy }

/-- The line levels a pulse list stands for, as (level, duration) pairs (R96, R170): what the adapter is
asked to produce, not what the block drives. -/
def waveform (seq : List Pulse) : List (Bool × Duration) :=
  seq.flatMap fun p => [(true, p.high), (false, p.low)]

/-- The total time of a frame in ns, as a natural number: the sum over its pulses of high and low
(R170). -/
def frameTime (seq : List Pulse) : Nat := (seq.map fun p => p.high.toNat + p.low.toNat).sum

end Sys2Proof.Machine
end

