-- ==== Sys2Proof/Machine/PixelBuffer.lean ====
section
/-! DEFINITION. The Pixel Buffer commands SET_PIXEL and GET_PIXEL (`41_pixel_buffer.md` rules R142, R143).
An out-of-range index is the bounds-checked failure, not an undefined case (`90_conflicts.md` C1). -/

namespace Sys2Proof.Machine

/-- SET_PIXEL (R142). -/
def execSetPixel (index : Count) (r g b : Byte) (s : State) : Host.Outcome State Fault Refusal :=
  .next <|
    if s.state ≠ .ready then raiseError .illegalState s
    else if ¬ indexInRange index s then raiseError .indexOutOfRange s
    else respond .ok [] (pixWrite index.toNat (packPixel r g b) s)

/-- GET_PIXEL (R143). -/
def execGetPixel (index : Count) (s : State) : Host.Outcome State Fault Refusal :=
  .next <|
    if s.state ≠ .ready then raiseError .illegalState s
    else if ¬ indexInRange index s then raiseError .indexOutOfRange s
    else respond .ok [(pixRead s index.toNat).setWidth 32] s

end Sys2Proof.Machine
end

