-- ==== Sys2Proof/Machine/Dispatch.lean ====
section
/-! DEFINITION. One arm per command: its meaning. -/

namespace Sys2Proof.Machine

/-- Perform one decoded command. -/
def exec (i : Instr) (s : State) : Host.Outcome State Fault Refusal :=
  match i with
  | .construct variant line count => Sys2Proof.Machine.execConstruct variant line count s
  | .setPixel index r g b => Sys2Proof.Machine.execSetPixel index r g b s
  | .getPixel index => Sys2Proof.Machine.execGetPixel index s
  | .update => Sys2Proof.Machine.execUpdate s
  | .lookupProfile variant => Sys2Proof.Machine.execLookupProfile variant s
  | .getConfig => Sys2Proof.Machine.execGetConfig s

end Sys2Proof.Machine
end

