-- ==== Sys2Proof/Machine/Ports.lean ====
section
/-! DEFINITION. What the block does at each of its ports (`30_encoding.md` rule R80), which is what one step
of the machine is made of, and what the outside world can do to it. -/

namespace Sys2Proof.Machine

/-- Reset wins, and the command it meets is abandoned with no response (R204, R230, R232). In BUSY that
command is the waiting UPDATE. Otherwise, with `duringCommand`, it is the next word on the port,
which the block had taken. A word not yet taken stays on the port (log 6). The input is an event:
it is released again after the step (log 7). -/
def takeReset (s : State) : State :=
  resetEvent
    { s with
      resetIn := .released
      cmdPort :=
        if s.resetIn = .duringCommand ∧ s.state ≠ .busy then s.cmdPort.drop 1 else s.cmdPort }

/-- BUSY: no command is taken (R234). The block waits for the adapter, for ever if need be (R235, log 19).
The answer to the pending request ends the UPDATE (R165); the late answer to a request that a
reset abandoned is ignored (R232, log 11); any other the block assumes never comes (R171, log 10). An
answer that was on the port before its request, which R171 also assumes never, has waited there and is
taken here as that request's answer (DESIGN CHOICE, log 21). -/
def awaitTx (s : State) : Host.Outcome State Fault Refusal :=
  match s.txPort with
  | [] => .next s
  | r :: rest =>
    if answersPending r s then .next (txFinish r.ok { s with txPort := rest })
    else if answersAbandoned r s then
      .next { s with txPort := rest, abandoned := s.abandoned.erase r.request }
    else .fault .adapterContract

/-- UNINIT or READY: take the next word from the command port and perform it (R70, R89). A reserved word is
performed as `raise RESERVED_COMMAND` (R90). With no word waiting the block is idle and its state
survives (R215). The transmit port is not looked at: an answer on it waits (log 11, 21). -/
def takeCommand (s : State) : Host.Outcome State Fault Refusal :=
  match s.cmdPort with
  | [] => .next s
  | w :: rest =>
    match decode w with
    | .ok i => exec i { s with cmdPort := rest }
    | .error _ => .next (raiseError .reservedCommand { s with cmdPort := rest })

/-! ### Inputs from outside, between two steps -/

/-- The host issues a command word: it waits on the port behind the ones already there (R70, R234). -/
def issueCommand (w : CommandWord) (s : State) : State := { s with cmdPort := s.cmdPort ++ [w] }

/-- The adapter gives an answer (R171). -/
def adapterAnswer (r : TxResp) (s : State) : State := { s with txPort := s.txPort ++ [r] }

/-- The reset input is asserted (R230). -/
def assertReset (kind : ResetIn) (s : State) : State := { s with resetIn := kind }

end Sys2Proof.Machine
end

