-- ==== Sys2Proof/Machine/Step.lean ====
section
/-! DEFINITION. One step of the block: reset before everything (`60_exceptions.md` rule R204), then the wait
for the adapter while BUSY (`70_reset_and_hazards.md` rule R234), else the next command. -/

namespace Sys2Proof.Machine

/-- One step. The block has no program counter and fetches nothing (R33, R73): its next instruction is the
next word on the command port. -/
def step (s : State) : Host.Outcome State Fault Refusal :=
  if s.resetIn ≠ .released then .next (takeReset s)
  else if s.state = .busy then awaitTx s
  else takeCommand s

/-- `s` with an instruction of the opcode table at the head of its command port, so that the very next
step takes it: the reset input released, and no UPDATE in flight (no command is taken in BUSY,
R234). Commands come from outside the block: this stands for a host issuing the word (log 16). -/
def State.withFetchWord (s : State) (nbits w : Nat) : State :=
  { s with
    cmdPort := tableWord nbits w :: s.cmdPort
    resetIn := .released
    state := if s.state = .busy then .ready else s.state
    pending := if s.state = .busy then none else s.pending }

end Sys2Proof.Machine
end

