-- ==== Sys2Proof/Machine/Assembler.lean ====
section
/-! DEFINITION. The assembly syntax (`30_encoding.md` rules R98, R99): a line of text to a statement, a
statement to its word. The lexical details the rule does not give are in log 18. -/

namespace Sys2Proof.Machine

/-- Why a line is not a command. -/
inductive AsmError where
  | unknownMnemonic
  | operandCount
  /-- An operand is neither a number nor, where one is allowed, a variant name. -/
  | badOperand
  /-- "An operand out of its range is an assembly error, never a wrapped value." -/
  | outOfRange
  deriving DecidableEq, Repr

/-- The command a statement names, its operands at their widths; `.word64` names a word, not a
command. -/
def asmInstr : AsmStmt → Option Instr
  | .construct v c l => some (.construct (.ofNat 4 v) (.ofNat 8 l) (.ofNat 32 c))
  | .setPixel i r g b => some (.setPixel (.ofNat 32 i) (.ofNat 8 r) (.ofNat 8 g) (.ofNat 8 b))
  | .getPixel i => some (.getPixel (.ofNat 32 i))
  | .update => some .update
  | .lookupProfile v => some (.lookupProfile (.ofNat 4 v))
  | .getConfig => some .getConfig
  | .word64 _ => none

/-- The word a statement assembles to; none when an operand is out of its range. -/
def asmWord (a : AsmStmt) : Option CommandWord :=
  if a.wellFormed then
    match a with
    | .word64 v => some (.ofNat 64 v)
    | _ => (asmInstr a).map encode
  else none

/-! ### Text -/

/-- A blank between tokens (log 18). -/
def isBlank (c : Char) : Bool := c = ' ' || c = '\t' || c = '\r'

/-- Drop the blanks at both ends. -/
def trim (cs : List Char) : List Char :=
  ((cs.dropWhile isBlank).reverse.dropWhile isBlank).reverse

/-- `;` to end of line is a comment. -/
def dropComment (cs : List Char) : List Char := cs.takeWhile (· ≠ ';')

/-- The pieces between commas; no text has no pieces. -/
def splitCommas : List Char → List (List Char)
  | [] => []
  | c :: cs =>
    if c = ',' then
      match splitCommas cs with
      | [] => [[], []]
      | rest => [] :: rest
    else
      match splitCommas cs with
      | [] => [[c]]
      | p :: rest => (c :: p) :: rest

/-- The value of a digit below `base`. -/
def digitValue (base : Nat) (c : Char) : Option Nat :=
  let n := c.toNat
  let v :=
    if 48 ≤ n ∧ n ≤ 57 then some (n - 48)
    else if 65 ≤ n ∧ n ≤ 70 then some (n - 55)
    else if 97 ≤ n ∧ n ≤ 102 then some (n - 87)
    else none
  v.filter (· < base)

/-- Digits from the most significant on, after `acc`. -/
def digitsValue (base : Nat) : Nat → List Char → Option Nat
  | acc, [] => some acc
  | acc, c :: cs =>
    match digitValue base c with
    | none => none
    | some d => digitsValue base (acc * base + d) cs

/-- A number in decimal or `0x` hexadecimal. -/
def parseNumber : List Char → Option Nat
  | [] => none
  | ['0', 'x'] => none
  | '0' :: 'x' :: cs => digitsValue 16 0 cs
  | cs => digitsValue 10 0 cs

/-- `<variant>`: a name of R91 or a number. -/
def parseVariant (cs : List Char) : Option Nat :=
  if cs = "NULL".toList then some 0
  else if cs = "A".toList then some 1
  else if cs = "B".toList then some 2
  else if cs = "C".toList then some 3
  else if cs = "GENERIC".toList then some 4
  else parseNumber cs

/-- A statement from operands that were all read. -/
def operand (n : Option Nat) (k : Nat → Except AsmError AsmStmt) : Except AsmError AsmStmt :=
  match n with
  | none => .error .badOperand
  | some n => k n

/-- The statement of a mnemonic and its operands, in the operand order of R98. -/
def parseStmt (mnemonic : List Char) (ops : List (List Char)) : Except AsmError AsmStmt :=
  if mnemonic = "CONSTRUCT".toList then
    match ops with
    | [v, c, l] =>
      operand (parseVariant v) fun v => operand (parseNumber c) fun c =>
        operand (parseNumber l) fun l => .ok (.construct v c l)
    | _ => .error .operandCount
  else if mnemonic = "SET_PIXEL".toList then
    match ops with
    | [i, r, g, b] =>
      operand (parseNumber i) fun i => operand (parseNumber r) fun r =>
        operand (parseNumber g) fun g => operand (parseNumber b) fun b => .ok (.setPixel i r g b)
    | _ => .error .operandCount
  else if mnemonic = "GET_PIXEL".toList then
    match ops with
    | [i] => operand (parseNumber i) fun i => .ok (.getPixel i)
    | _ => .error .operandCount
  else if mnemonic = "UPDATE".toList then
    match ops with
    | [] => .ok .update
    | _ => .error .operandCount
  else if mnemonic = "LOOKUP_PROFILE".toList then
    match ops with
    | [v] => operand (parseVariant v) fun v => .ok (.lookupProfile v)
    | _ => .error .operandCount
  else if mnemonic = "GET_CONFIG".toList then
    match ops with
    | [] => .ok .getConfig
    | _ => .error .operandCount
  else if mnemonic = ".word64".toList then
    match ops with
    | [v] => operand (parseNumber v) fun v => .ok (.word64 v)
    | _ => .error .operandCount
  else .error .unknownMnemonic

/-- The statement of one line; none for a line with no command on it. -/
def parseLine (line : List Char) : Except AsmError (Option AsmStmt) :=
  let text := trim (dropComment line)
  if text.isEmpty then .ok none
  else
    let mnemonic := text.takeWhile (! isBlank ·)
    let rest := trim (text.dropWhile (! isBlank ·))
    (parseStmt mnemonic ((splitCommas rest).map trim)).map some

/-- The word of one line of assembly; none for a line with no command on it. -/
def assembleLine (line : List Char) : Except AsmError (Option CommandWord) :=
  match parseLine line with
  | .error e => .error e
  | .ok none => .ok none
  | .ok (some a) =>
    match asmWord a with
    | none => .error .outOfRange
    | some w => .ok (some w)

end Sys2Proof.Machine
end

