-- ==== Sys2Proof/Safety.lean ====
section
/-! DEFINITION. What the claims about runs are stated in: the invariant of the block, the adapter's side of
the contract, and the end and the observable result of a run. -/

namespace Sys2Proof.Machine

/-- What every state of a run meets. -/
structure Inv (s : State) : Prop where
  /-- UNINIT holds the Null profile and zeros (R22, R25, R26). -/
  uninitNull : s.state = .uninit →
    s.variant = variantNull ∧ s.line = 0 ∧ s.ledCount = 0 ∧ s.profile = nullProfile
  /-- READY and BUSY hold the row of a supported variant (R26, R114). -/
  latchedRow : s.state ≠ .uninit → supportedRow s.variant = some s.profile
  /-- `LED_COUNT` never exceeds `MAX_LEDS` (R24). -/
  capacity : s.ledCount ≤ s.maxLeds
  /-- The Pixel Buffer is in canonical form. -/
  pixForm : s.pix.wf
  /-- The Pixel Buffer has `MAX_LEDS` entries (R30). -/
  pixExtent : ∀ c ∈ s.pix, c.1 < s.maxLeds.toNat
  /-- A transmit is pending exactly in BUSY (R34). -/
  pendingBusy : s.state = .busy ↔ s.pending.isSome
  /-- What is pending is an UPDATE, and its request is the newest one (R34). -/
  pendingNewest : ∀ p ∈ s.pending, p.command = .update ∧ p.request + 1 = s.txReqs.length
  /-- An empty frame is never in flight (R165). -/
  busyFrame : s.state = .busy → s.ledCount ≠ 0
  /-- Abandoned requests were sent, and are not the pending one (R232). -/
  abandonedSent : ∀ n ∈ s.abandoned, n < s.txReqs.length ∧ ∀ p ∈ s.pending, n ≠ p.request
  /-- No request is abandoned twice. -/
  abandonedOnce : s.abandoned.Nodup
  /-- The run began within the records of what was sent (R241). -/
  runBegan : s.responsesBefore ≤ s.responses.length ∧ s.txReqsBefore ≤ s.txReqs.length
  /-- Every response sent has the form of R93 and R94. -/
  responsesLegal : ∀ r ∈ s.responses, r.legal
  /-- Every request sent has `wait` 1 and whole pixels, at least one (R97, R171). -/
  requestsLegal : ∀ q ∈ s.txReqs, q.wait = true ∧ q.pulses ≠ [] ∧ 24 ∣ q.pulses.length

/-- The adapter's side of the contract (R171): the answers on the port are to requests that are pending or
that a reset abandoned, at most one to each. So none stands there before its request (log 21). -/
structure AdapterHonest (s : State) : Prop where
  onlyToRequests : ∀ r ∈ s.txPort, answersPending r s ∨ answersAbandoned r s
  onceEach : (s.txPort.map (·.request)).Nodup

/-- A run has ended when "every command issued has its response and STATE != BUSY" (R241). -/
def runEnded (s : State) : Bool := s.cmdPort.isEmpty && s.state ≠ .busy

/-- "The observable result of a run" (R241), which is "a sequence of commands from one reset". -/
structure Observation where
  responses : List Response
  txReqs : List TxReq
  state : Lifecycle
  variant : VariantCode
  line : LineId
  ledCount : Count
  profile : Profile
  pixels : List Pixel
  deriving DecidableEq, Repr

/-- The responses and the transmit requests of the run, those since the last reset, and the registers and
the visible pixels (R241). -/
def observe (s : State) : Observation :=
  ⟨s.responses.drop s.responsesBefore, s.txReqs.drop s.txReqsBefore, s.state, s.variant, s.line, s.ledCount, s.profile, visiblePixels s⟩

end Sys2Proof.Machine
end

