-- ==== Sys2Proof/Certificates/Slice0/Obligations.lean ====
section
/-! DEFINITION. The statements for the provers, from the numbered rules of spec/. -/

open Sys2Proof Sys2Proof.Machine

/-! ### Encoding (`30_encoding.md`) -/

/-- Decode of encode is the command, for every command with every value of every operand: no bit of a
format is dropped (R82 to R89). -/
def Obligations.DecodeOfEncodeIsTheCommand : Prop :=
  ∀ i : Instr, decode (encode i) = .ok i

/-- "Each legal word decodes to exactly one command": a word that decodes to a command is that command's
word, so no two words mean one command (R82 to R89). -/
def Obligations.EncodeOfDecodeIsTheWord : Prop :=
  ∀ (w : CommandWord) (i : Instr), decode w = .ok i → encode i = w

/-- The six formats: a word whose masked bits are the format's match decodes to the format's command with
the fields of R88, and no other word decodes to that command (R82 to R87). -/
def Obligations.FormatsAreTheMasksAndMatches : Prop :=
  ∀ w : CommandWord,
    ((w &&& 0xF000FFFF00000000 = 0x1000000000000000 ↔ ∃ v l c, decode w = .ok (.construct v l c)) ∧
      (w &&& 0xF000FFFF00000000 = 0x1000000000000000 →
        decode w = .ok (.construct (w.extractLsb' 56 4) (w.extractLsb' 48 8) (w.extractLsb' 0 32)))) ∧
    ((w &&& 0xFF00000000000000 = 0x2000000000000000 ↔ ∃ i r g b, decode w = .ok (.setPixel i r g b)) ∧
      (w &&& 0xFF00000000000000 = 0x2000000000000000 →
        decode w = .ok (.setPixel (w.extractLsb' 0 32) (w.extractLsb' 48 8) (w.extractLsb' 40 8)
          (w.extractLsb' 32 8)))) ∧
    ((w &&& 0xFFFFFFFF00000000 = 0x3000000000000000 ↔ ∃ i, decode w = .ok (.getPixel i)) ∧
      (w &&& 0xFFFFFFFF00000000 = 0x3000000000000000 →
        decode w = .ok (.getPixel (w.extractLsb' 0 32)))) ∧
    (w &&& 0xFFFFFFFFFFFFFFFF = 0x4000000000000000 ↔ decode w = .ok .update) ∧
    ((w &&& 0xF0FFFFFFFFFFFFFF = 0x5000000000000000 ↔ ∃ v, decode w = .ok (.lookupProfile v)) ∧
      (w &&& 0xF0FFFFFFFFFFFFFF = 0x5000000000000000 →
        decode w = .ok (.lookupProfile (w.extractLsb' 56 4)))) ∧
    (w &&& 0xFFFFFFFFFFFFFFFF = 0x6000000000000000 ↔ decode w = .ok .getConfig)

/-- Words of R90 and `95_test_vectors.md` 2.1, one per family and the reserved ones beside them. -/
def Obligations.WordsDecodeAsTheVectorsSay : Prop :=
  decode 0x1105000000000001 = .ok (.construct 1 5 1) ∧
  decode 0x1105000100000001 = .error .field ∧
  decode 0x200A141E00000000 = .ok (.setPixel 0 10 20 30) ∧
  decode 0x210A141E00000000 = .error .field ∧
  decode 0x30000000FFFFFFFF = .ok (.getPixel 0xFFFFFFFF) ∧
  decode 0x4000000000000000 = .ok .update ∧
  decode 0x4000000000000001 = .error .field ∧
  decode 0x5200000000000000 = .ok (.lookupProfile 2) ∧
  decode 0x6000000000000000 = .ok .getConfig ∧
  decode 0x0000000000000000 = .error .opcode ∧
  decode 0x7000000000000000 = .error .opcode ∧
  decode 0xF000000000000000 = .error .opcode

/-- The status word of a response (R93): `RESULT` in [3:0], `STATE` in [9:8], 0 elsewhere, with the codes of R95
and R21, and a host reads back what was written. A word with a code that is never produced, a nonzero
reserved bit or BUSY is refused (I14). -/
def Obligations.StatusWordHasTheFormat : Prop :=
  [ResultCode.ok, .unsupportedVariant, .allocationFailure, .indexOutOfRange, .transmitFailure,
    .illegalState, .reservedCommand].map ResultCode.code = [0, 1, 2, 3, 4, 5, 6] ∧
  [Lifecycle.uninit, .ready, .busy].map Lifecycle.code = [0, 1, 2] ∧
  (∀ (r : ResultCode) (st : Lifecycle),
    (statusWord r st).extractLsb' 0 4 = r.code ∧ (statusWord r st).extractLsb' 4 4 = 0 ∧
    (statusWord r st).extractLsb' 8 2 = st.code ∧ (statusWord r st).extractLsb' 10 22 = 0 ∧
    readStatus (statusWord r st) = if st = .busy then none else some (r, st)) ∧
  ∀ (w : ResponseWord) (r : ResultCode) (st : Lifecycle),
    readStatus w = some (r, st) → w = statusWord r st

/-- The pulse descriptor is `{HIGH[63:32], LOW[31:0]}`, and the line is driven high for `HIGH` ns and then low
for `LOW` ns (R96). -/
def Obligations.DescriptorHoldsHighThenLow : Prop :=
  ∀ p : Pulse, p.descriptor.extractLsb' 32 32 = p.high ∧ p.descriptor.extractLsb' 0 32 = p.low ∧
    waveform [p] = [(true, p.high), (false, p.low)]

/-- A line of assembly whose operands are in range assembles to the word of the command it names, which
decodes to that command; one with an operand out of its range does not assemble (R98). -/
def Obligations.AssemblyIsTheWordOrAnError : Prop :=
  (∀ a : AsmStmt, a.wellFormed = false → asmWord a = none) ∧
  (∀ v c l : Nat, v < 2 ^ 4 → c < 2 ^ 32 → l < 2 ^ 8 → ∃ w i, asmWord (.construct v c l) = some w ∧
    decode w = .ok i ∧ ∃ v' l' c', i = .construct v' l' c' ∧
      v'.toNat = v ∧ l'.toNat = l ∧ c'.toNat = c) ∧
  (∀ n r g b : Nat, n < 2 ^ 32 → r < 2 ^ 8 → g < 2 ^ 8 → b < 2 ^ 8 →
    ∃ w i, asmWord (.setPixel n r g b) = some w ∧
      decode w = .ok i ∧ ∃ n' r' g' b', i = .setPixel n' r' g' b' ∧
        n'.toNat = n ∧ r'.toNat = r ∧ g'.toNat = g ∧ b'.toNat = b) ∧
  (∀ n : Nat, n < 2 ^ 32 → ∃ w n', asmWord (.getPixel n) = some w ∧
    decode w = .ok (.getPixel n') ∧ n'.toNat = n) ∧
  (∀ v : Nat, v < 2 ^ 4 → ∃ w v', asmWord (.lookupProfile v) = some w ∧
    decode w = .ok (.lookupProfile v') ∧ v'.toNat = v) ∧
  (∃ w, asmWord .update = some w ∧ decode w = .ok .update) ∧
  (∃ w, asmWord .getConfig = some w ∧ decode w = .ok .getConfig) ∧
  ∀ v : Nat, v < 2 ^ 64 → ∃ w : CommandWord, asmWord (.word64 v) = some w ∧ w.toNat = v

/-! ### Reset (`70_reset_and_hazards.md`) -/

/-- The register values after reset (R230; R21 to R25 and R34 of `10_state.md`). -/
def Obligations.ResetLeavesTheNullProfile : Prop :=
  State.reset.state = .uninit ∧ State.reset.variant = 0 ∧ State.reset.line = 0 ∧
  State.reset.ledCount = 0 ∧ State.reset.t0h = 0 ∧ State.reset.t0l = 0 ∧ State.reset.t1h = 0 ∧
  State.reset.t1l = 0 ∧ State.reset.resetGap = 0 ∧ State.reset.bpl = 0 ∧
  State.reset.pending = none ∧ ∀ k, shape State.reset k = ⟨0, 0⟩

/-- A reset asserted in any state, "at once and whatever it is doing": every register takes its reset value, no
transmit is pending, `PIX` is not written (R230), and no response is sent for a command it meets (R204,
R232). That a command it meets part of the way has written no pixel and sent no request either is the
model's choice (log 7), as is that the records of the ports are kept (log 12). -/
def Obligations.ResetWinsAndAnswersNothing : Prop :=
  ∀ s : State, s.resetIn ≠ .released → ∃ t, step s = .next t ∧
    t.state = .uninit ∧ t.variant = 0 ∧ t.line = 0 ∧ t.ledCount = 0 ∧
    t.profile = ⟨0, 0, 0, 0, 0, 0⟩ ∧ t.pending = none ∧ t.pix = s.pix ∧
    t.responses = s.responses ∧ t.txReqs = s.txReqs ∧ t.maxLeds = s.maxLeds

/-- What the model's ports keep over a reset: the input is released again, a word not yet taken stays on the
command port, the one the reset meets is gone, and a request in flight becomes an abandoned one. The
model's choice (log 6, 7, 11): the spec says only that the command met is abandoned (R204, R232). -/
def Obligations.ResetKeepsTheWaitingWords : Prop :=
  ∀ s t : State, s.resetIn ≠ .released → step s = .next t →
    t.resetIn = .released ∧ t.txPort = s.txPort ∧
    t.abandoned = s.abandoned ++ s.pending.toList.map (·.request) ∧
    (s.state = .busy ∨ s.resetIn = .betweenCommands → t.cmdPort = s.cmdPort) ∧
    (s.state ≠ .busy ∧ s.resetIn = .duringCommand → t.cmdPort = s.cmdPort.tail)

/-- A late answer, to a request that a reset abandoned, is ignored: it ends no UPDATE and sends no
response (R232). That the block knows it by its number (log 9), takes it off the port in BUSY, and
erases its number from the list of abandoned requests (log 11) is the model's own. -/
def Obligations.LateAnswerIsIgnored : Prop :=
  ∀ (s : State) (n : Nat) (ok : Bool) (rest : List TxResp),
    s.resetIn = .released → s.state = .busy → s.txPort = ⟨n, ok⟩ :: rest →
    n ∈ s.abandoned → (∀ p ∈ s.pending, p.request ≠ n) →
    step s = .next { s with txPort := rest, abandoned := s.abandoned.erase n }

/-! ### What a step does -/

/-- A step in UNINIT or READY performs the command that the next word on the port decodes to, having taken
that word off the port and changed nothing else (R70, R89). -/
def Obligations.StepPerformsTheDecodedCommand : Prop :=
  ∀ (s : State) (i : Instr) (rest : List CommandWord), s.resetIn = .released → s.state ≠ .busy →
    s.cmdPort = encode i :: rest → step s = exec i { s with cmdPort := rest }

/-- A word is reserved exactly when its opcode is 0x0 or 0x7 to 0xF, or a field that must be 0 is not; in any
state except BUSY it is answered with RESERVED_COMMAND and writes no state, and in BUSY it waits like
any command (R90). -/
def Obligations.ReservedWordIsAnsweredAndWritesNothing : Prop :=
  (∀ w : CommandWord, (∃ e, decode w = .error e) ↔
    (w.extractLsb' 60 4 = 0 ∨ 7 ≤ (w.extractLsb' 60 4).toNat ∨
      (w.extractLsb' 60 4 = 1 ∧ w.extractLsb' 32 16 ≠ 0) ∨
      (w.extractLsb' 60 4 = 2 ∧ w.extractLsb' 56 4 ≠ 0) ∨
      (w.extractLsb' 60 4 = 3 ∧ w.extractLsb' 32 28 ≠ 0) ∨
      (w.extractLsb' 60 4 = 4 ∧ w.extractLsb' 0 60 ≠ 0) ∨
      (w.extractLsb' 60 4 = 5 ∧ w.extractLsb' 0 56 ≠ 0) ∨
      (w.extractLsb' 60 4 = 6 ∧ w.extractLsb' 0 60 ≠ 0))) ∧
  ∀ (s : State) (w : CommandWord) (e : Reserved) (rest : List CommandWord),
    s.resetIn = .released → s.cmdPort = w :: rest → decode w = .error e →
    (s.state ≠ .busy → step s = .next { s with
      cmdPort := rest
      responses := s.responses ++ [⟨statusWord .reservedCommand s.state, []⟩] }) ∧
    (s.state = .busy → ∀ t, step s = .next t → t.cmdPort = w :: rest)

/-- While BUSY no command is taken: whatever the step does, the words on the port stay there, and no
transmit request is sent (R234). -/
def Obligations.BusyTakesNoCommand : Prop :=
  ∀ s t : State, s.resetIn = .released → s.state = .busy → step s = .next t →
    t.cmdPort = s.cmdPort ∧ t.txReqs = s.txReqs ∧ t.pix = s.pix ∧ t.ledCount = s.ledCount ∧
    t.profile = s.profile

/-- While the adapter gives no answer the block stays BUSY, unchanged (R235). That this is a step is the
model's (log 19). -/
def Obligations.NoAnswerKeepsTheBlockBusy : Prop :=
  ∀ s : State, s.resetIn = .released → s.state = .busy → s.txPort = [] → step s = .next s

/-- Once every command issued has its response and the block is not BUSY the run has ended (R241): with the
reset released the block is idle and all its state survives (R215). That idling is a step is the model's
(log 19). -/
def Obligations.IdleBlockKeepsItsState : Prop :=
  ∀ s : State, s.resetIn = .released → runEnded s = true → step s = .next s ∧
    s.cmdPort = [] ∧ busyOut s = false

/-- Every command taken has exactly one response, and it is sent before the next is taken: a step that takes
a word either goes BUSY and sends none yet, or sends one; a step from BUSY sends one exactly when it
leaves BUSY (R70, R93, R200). -/
def Obligations.OneResponsePerCommandTaken : Prop :=
  (∀ (s t : State) (w : CommandWord) (rest : List CommandWord), s.resetIn = .released →
    s.state ≠ .busy → s.cmdPort = w :: rest → step s = .next t → t.cmdPort = rest ∧
      (t.state = .busy ∧ t.responses = s.responses ∨
        t.state ≠ .busy ∧ ∃ r, t.responses = s.responses ++ [r])) ∧
  ∀ s t : State, s.resetIn = .released → s.state = .busy → step s = .next t →
    (t.state = .busy ∧ t.responses = s.responses ∨
      t.state = .ready ∧ ∃ r, t.responses = s.responses ++ [r])

/-- "A run of the block is a sequence of commands from one reset", and its observable result is its responses,
its transmit requests, and the final values of the registers and of the visible pixels (R241): whatever
the block did before the reset, the result at the end of a run of any length lists exactly what was
sent since, and right after the reset it lists nothing. That the records of what was sent before stay,
and are told apart by their number, is the model's (log 12). -/
def Obligations.ResultOfARunStartsAtItsReset : Prop :=
  ∀ (k : Nat) (s s₀ t : State), s.resetIn ≠ .released → step s = .next s₀ →
    observe s₀ = ⟨[], [], .uninit, 0, 0, 0, ⟨0, 0, 0, 0, 0, 0⟩, []⟩ ∧
    (Sys2Proof.core.run k s₀ = .next t →
      t.responses = s.responses ++ (observe t).responses ∧
      t.txReqs = s.txReqs ++ (observe t).txReqs ∧
      (observe t).state = t.state ∧ (observe t).variant = t.variant ∧ (observe t).line = t.line ∧
      (observe t).ledCount = t.ledCount ∧
      (observe t).profile = ⟨t.t0h, t.t0l, t.t1h, t.t1l, t.resetGap, t.bpl⟩ ∧
      (observe t).pixels.length = t.ledCount.toNat ∧
      ∀ i < t.ledCount.toNat, (observe t).pixels[i]? = some (pixRead t i))

/-! ### CONSTRUCT, LOOKUP_PROFILE, GET_CONFIG (`40_configuration.md`) -/

/-- CONSTRUCT (R113, R140). In UNINIT with a supported variant and a count within the capacity it completes: it
latches the table's row, the variant, the line and the count, zeroes the visible pixels and no other,
goes READY and answers OK; nothing else changes. Otherwise it only answers: ILLEGAL_STATE when READY,
then UNSUPPORTED_VARIANT for 0 and 5 to 15 whatever the count, then ALLOCATION_FAILURE. -/
def Obligations.ConstructCreatesTheController : Prop :=
  ∀ (s : State) (v : VariantCode) (l : LineId) (c : Count),
    (s.state = .uninit → v ∈ [1#4, 2#4, 3#4, 4#4] → c ≤ s.maxLeds →
      ∃ t, exec (.construct v l c) s = .next t ∧
        timingRow v = some t.profile ∧ t.variant = v ∧ t.line = l ∧ t.ledCount = c ∧
        t.state = .ready ∧ t.responses = s.responses ++ [⟨statusWord .ok .ready, []⟩] ∧
        (∀ i < c.toNat, pixRead t i = 0) ∧ (∀ i ≥ c.toNat, pixRead t i = pixRead s i) ∧
        t.pending = s.pending ∧ t.maxLeds = s.maxLeds ∧ t.cmdPort = s.cmdPort ∧
        t.txPort = s.txPort ∧ t.resetIn = s.resetIn ∧ t.txReqs = s.txReqs ∧
        t.abandoned = s.abandoned ∧ t.responsesBefore = s.responsesBefore ∧
        t.txReqsBefore = s.txReqsBefore) ∧
    (s.state = .ready → exec (.construct v l c) s =
      .next { s with responses := s.responses ++ [⟨statusWord .illegalState .ready, []⟩] }) ∧
    (s.state = .uninit → v ∉ [1#4, 2#4, 3#4, 4#4] → exec (.construct v l c) s =
      .next { s with responses := s.responses ++ [⟨statusWord .unsupportedVariant .uninit, []⟩] }) ∧
    (s.state = .uninit → v ∈ [1#4, 2#4, 3#4, 4#4] → s.maxLeds < c → exec (.construct v l c) s =
      .next { s with responses := s.responses ++ [⟨statusWord .allocationFailure .uninit, []⟩] })

/-- LOOKUP_PROFILE completes in UNINIT and READY alike: the row's five durations and its byte count for a code
that has a row, the Null row of zeros among them, UNSUPPORTED_VARIANT for the others; it writes no
state (R110, R115). -/
def Obligations.LookupProfileReadsTheTable : Prop :=
  ∀ s : State, s.state ≠ .busy →
    (∀ v ∈ [(0#4, [0, 0, 0, 0, 0, 0]), (1#4, [350, 800, 700, 600, 50000, 3]),
        (2#4, [300, 1090, 1090, 320, 280000, 3]), (3#4, [400, 850, 800, 450, 50000, 3]),
        (4#4, ([400, 850, 850, 400, 50000, 3] : List ResponseWord))],
      exec (.lookupProfile v.1) s =
        .next { s with responses := s.responses ++ [⟨statusWord .ok s.state, v.2⟩] }) ∧
    ∀ v : VariantCode, 5 ≤ v.toNat → exec (.lookupProfile v) s =
      .next { s with responses := s.responses ++ [⟨statusWord .unsupportedVariant s.state, []⟩] }

/-- The Timing Profile Table as printed, codes 5 to 15 without a row; the byte count is 3 for all supported
variants and 0 for Null; Null is in the table and not supported (R110, R111, R112). -/
def Obligations.TimingTableIsAsPrinted : Prop :=
  timingRow 1 = some ⟨350, 800, 700, 600, 50000, 3⟩ ∧
  timingRow 2 = some ⟨300, 1090, 1090, 320, 280000, 3⟩ ∧
  timingRow 3 = some ⟨400, 850, 800, 450, 50000, 3⟩ ∧
  timingRow 4 = some ⟨400, 850, 850, 400, 50000, 3⟩ ∧
  timingRow 0 = some ⟨0, 0, 0, 0, 0, 0⟩ ∧
  (∀ v : VariantCode, 5 ≤ v.toNat → timingRow v = none) ∧
  (∀ v : VariantCode, supported v = true ↔ v ∈ [1#4, 2#4, 3#4, 4#4]) ∧
  ∀ v p, timingRow v = some p → p.bytesPerLed = if supported v then 3 else 0

/-- GET_CONFIG completes in UNINIT and READY with the nine registers and writes nothing; in UNINIT, where the
invariant holds, they are nine zeros (R116). -/
def Obligations.GetConfigReadsBackEveryRegister : Prop :=
  (∀ s : State, s.state ≠ .busy → exec .getConfig s =
    .next { s with responses := s.responses ++ [⟨statusWord .ok s.state,
      [s.variant.setWidth 32, s.line.setWidth 32, s.ledCount, s.t0h, s.t0l, s.t1h, s.t1l,
       s.resetGap, s.bpl.setWidth 32]⟩] }) ∧
  ∀ s : State, Inv s → s.state = .uninit → exec .getConfig s =
    .next { s with responses := s.responses ++ [⟨statusWord .ok .uninit, List.replicate 9 0⟩] }

/-! ### SET_PIXEL, GET_PIXEL (`41_pixel_buffer.md`) -/

/-- SET_PIXEL (R142). In READY with an index below `LED_COUNT` it completes: that pixel becomes (r, g, b), every
other pixel and everything else but the response port stays. Otherwise it only answers: ILLEGAL_STATE
in UNINIT, INDEX_OUT_OF_RANGE in READY for every index not below `LED_COUNT`. The canonical form of the
buffer, assumed before and kept after, is the model's choice (log 4). -/
def Obligations.SetPixelWritesOnePixel : Prop :=
  ∀ (s : State) (i : Count) (r g b : Byte),
    (s.state = .ready → s.pix.wf → i < s.ledCount →
      ∃ m, exec (.setPixel i r g b) s =
          .next { s with pix := m, responses := s.responses ++ [⟨statusWord .ok .ready, []⟩] } ∧
        red (m.read i.toNat) = r ∧ green (m.read i.toNat) = g ∧ blue (m.read i.toNat) = b ∧
        (∀ j ≠ i.toNat, m.read j = s.pix.read j) ∧ m.wf) ∧
    (s.state = .uninit → exec (.setPixel i r g b) s =
      .next { s with responses := s.responses ++ [⟨statusWord .illegalState .uninit, []⟩] }) ∧
    (s.state = .ready → s.ledCount ≤ i → exec (.setPixel i r g b) s =
      .next { s with responses := s.responses ++ [⟨statusWord .indexOutOfRange .ready, []⟩] })

/-- GET_PIXEL (R143). In READY with an index below `LED_COUNT` it completes with one payload word
`{0x00, R, G, B}`; otherwise it answers ILLEGAL_STATE in UNINIT and INDEX_OUT_OF_RANGE in READY. It
writes nothing. -/
def Obligations.GetPixelAnswersTheEntry : Prop :=
  ∀ (s : State) (i : Count),
    (s.state = .ready → i < s.ledCount →
      ∃ w : ResponseWord, exec (.getPixel i) s =
          .next { s with responses := s.responses ++ [⟨statusWord .ok .ready, [w]⟩] } ∧
        w.extractLsb' 24 8 = 0 ∧ w.extractLsb' 16 8 = red (pixRead s i.toNat) ∧
        w.extractLsb' 8 8 = green (pixRead s i.toNat) ∧
        w.extractLsb' 0 8 = blue (pixRead s i.toNat)) ∧
    (s.state = .uninit → exec (.getPixel i) s =
      .next { s with responses := s.responses ++ [⟨statusWord .illegalState .uninit, []⟩] }) ∧
    (s.state = .ready → s.ledCount ≤ i → exec (.getPixel i) s =
      .next { s with responses := s.responses ++ [⟨statusWord .indexOutOfRange .ready, []⟩] })

/-- "a GET_PIXEL returns the value the last SET_PIXEL (or CONSTRUCT) wrote at that index": after a SET_PIXEL, a
GET_PIXEL of the same index answers its (r, g, b), one of another index what it answered before
(R74, R142, R143). The canonical form of the buffer, assumed before, is the model's choice (log 4). -/
def Obligations.GetPixelReturnsTheLastSetPixel : Prop :=
  ∀ (s : State) (i j : Count) (r g b : Byte), s.state = .ready → s.pix.wf → i < s.ledCount →
    j < s.ledCount →
    ∃ t u, exec (.setPixel i r g b) s = .next t ∧ exec (.getPixel j) t = .next u ∧
      u.responses = t.responses ++ [⟨statusWord .ok .ready,
        [if j = i then 0#8 ++ r ++ g ++ b else (pixRead s j.toNat).setWidth 32]⟩]

/-- "An index `i` names a pixel exactly when `reg.STATE` is `READY` or `BUSY` and `i < reg.LED_COUNT`, comparing
both as unsigned 32-bit numbers" (R61); and when the block takes commands, it is on those indices
and no others that a GET_PIXEL answers OK. -/
def Obligations.IndexNamesAPixelExactlyBelowTheCount : Prop :=
  ∀ (s : State) (i : Count),
    (namesPixel i s = true ↔ (s.state = .ready ∨ s.state = .busy) ∧ i.toNat < s.ledCount.toNat) ∧
    (s.state ≠ .busy → (namesPixel i s = true ↔ ∃ (t : State) (w : ResponseWord),
      exec (.getPixel i) s = .next t ∧
      t.responses = s.responses ++ [⟨statusWord .ok s.state, [w]⟩]))

/-- Right after a CONSTRUCT that succeeds every in-range pixel reads 0 (R140, R143). -/
def Obligations.PixelsAreZeroAfterConstruct : Prop :=
  ∀ (s : State) (v : VariantCode) (l : LineId) (c i : Count), s.state = .uninit →
    supported v = true → c ≤ s.maxLeds → i < c →
    ∃ t u, exec (.construct v l c) s = .next t ∧ exec (.getPixel i) t = .next u ∧
      u.responses = t.responses ++ [⟨statusWord .ok .ready, [0]⟩]

/-! ### The Frame Encoder and UPDATE (`42_frame_encoder.md`) -/

/-- The shape file (R29): the data bit chooses the high-duration and, unless the pulse is the last of a
frame, the low-duration; after reset all four entries are (0, 0). -/
def Obligations.ShapeFileHoldsTheFourShapes : Prop :=
  (∀ s : State, shape s 0 = ⟨s.t0h, s.t0l⟩ ∧ shape s 1 = ⟨s.t1h, s.t1l⟩ ∧
    shape s 2 = ⟨s.t0h, s.resetGap⟩ ∧ shape s 3 = ⟨s.t1h, s.resetGap⟩) ∧
  (∀ isLast bit : Bool, (shapeIndex isLast bit).getLsbD 0 = bit ∧
    (shapeIndex isLast bit).getLsbD 1 = isLast) ∧
  ∀ k, shape State.reset k = ⟨0, 0⟩

/-- Step 1 puts the pixels in index order, green then red then blue, three bytes per pixel (R161). -/
def Obligations.SerializeIsGreenRedBlue : Prop :=
  ∀ (px : List Pixel), (serialize px).length = 3 * px.length ∧
    ∀ (k : Nat) (h : k < px.length), (serialize px)[3 * k]? = some (green px[k]) ∧
      (serialize px)[3 * k + 1]? = some (red px[k]) ∧ (serialize px)[3 * k + 2]? = some (blue px[k])

/-- Step 2 (R162): eight pulses per byte, and "pulse `8*j + k` depends on byte `j` bit `7 - k` alone". -/
def Obligations.ExpandIsMostSignificantBitFirst : Prop :=
  ∀ (s : State) (bs : List Byte), (expand s bs).length = 8 * bs.length ∧
    ∀ (j k : Nat) (h : j < bs.length), k < 8 → (expand s bs)[8 * j + k]? =
      some (if bs[j].getLsbD (7 - k) then ⟨s.t1h, s.t1l⟩ else ⟨s.t0h, s.t0l⟩)

/-- Step 3 (R163): an empty sequence is left empty, of any other only the last pulse's low-duration becomes
`reset_gap`, and the patched pulse is `shape[2]` when the last bit is 0 and `shape[3]` when it is 1. -/
def Obligations.PatchTouchesOnlyTheLastPulse : Prop :=
  ∀ s : State, patch s [] = [] ∧
    (∀ (seq : List Pulse) (p : Pulse), patch s (seq ++ [p]) = seq ++ [⟨p.high, s.resetGap⟩]) ∧
    ∀ (seq : List Pulse) (bit : Bool),
      patch s (seq ++ [bitPulse s bit]) = seq ++ [shape s (if bit then 3 else 2)]

/-- The whole function (R164): patch, expand and serialize of the pixels 0 to n - 1, and "the encoded Pulse
Sequence length is always exactly `n × 3 × 8` pulses", which is below 2^37. -/
def Obligations.FrameLengthIsTwentyFourPerLed : Prop :=
  ∀ s : State, (encodeFrame s).length = 24 * s.ledCount.toNat ∧ (encodeFrame s).length < 2 ^ 37 ∧
    ∃ pixels : List Pixel, pixels.length = s.ledCount.toNat ∧
      (∀ i < s.ledCount.toNat, pixels[i]? = some (pixRead s i)) ∧
      encodeFrame s = patch s (expand s (serialize pixels))

/-- The patched pulse (R168): for at least one LED, pulse `24n - 1` has the high-duration of bit 0 of the last
pixel's blue and the low-duration `reset_gap`, and every earlier pulse is the unpatched one. No row of
a supported variant has a low-duration equal to its `reset_gap`. The spec marks R168 "[derived: from
rules R161 to R163]". -/
def Obligations.LastPulseCarriesTheResetGap : Prop :=
  (∀ s : State, s.ledCount ≠ 0 →
    (encodeFrame s)[24 * s.ledCount.toNat - 1]? =
      some ⟨if (blue (pixRead s (s.ledCount.toNat - 1))).getLsbD 0 then s.t1h else s.t0h,
        s.resetGap⟩ ∧
    ∀ k < 24 * s.ledCount.toNat - 1, (encodeFrame s)[k]? =
      (expand s (serialize (visiblePixels s)))[k]?) ∧
  ∀ v p, supportedRow v = some p → p.t0Low ≠ p.resetGap ∧ p.t1Low ≠ p.resetGap

/-- The whole frame, pulse by pulse, from the shape file alone (R29, R161 to R164, R168): pulse `m` of LED
`m / 24` is the shape `{is_last, bit}`, where the bit is bit `7 - m % 8` of that pixel's green, red or
blue byte and `is_last` holds of pulse `24n - 1` only. This is the encoder with no lists in it. -/
def Obligations.FrameIsTheShapeOfEachBit : Prop :=
  ∀ s : State, encodeFrame s = (List.range (24 * s.ledCount.toNat)).map fun m =>
    let px := pixRead s (m / 24)
    let byte := if m % 24 / 8 = 0 then green px else if m % 24 / 8 = 1 then red px else blue px
    shape s (shapeIndex (m + 1 = 24 * s.ledCount.toNat) (byte.getLsbD (7 - m % 8)))

/-- The frame is a function of the profile registers and of the visible pixels: states that agree on those,
whatever else differs, have the same frame (R71, R160). -/
def Obligations.FrameDependsOnProfileAndVisiblePixels : Prop :=
  ∀ s t : State, s.profile = t.profile → s.ledCount = t.ledCount →
    (∀ i < s.ledCount.toNat, pixRead s i = pixRead t i) → encodeFrame s = encodeFrame t

/-- The time a frame lasts (R240): with `z` zero bits and `o` one bits among its `24n`, the last of them `b`,
it is `z * P0 + o * P1 - (b ? t1_low : t0_low) + reset_gap` ns, stated without subtraction; and the
periods `P0`, `P1` and reset lows of the four variants. The spec marks R240 "[derived: from
`42_frame_encoder.md` rules R163 and R170]". -/
def Obligations.FrameTimeIsTheSumOfItsBits : Prop :=
  (∀ s : State, s.ledCount ≠ 0 →
    let bitsOf := (serialize (visiblePixels s)).flatMap fun b =>
      (List.range 8).map fun k => b.getLsbD (7 - k)
    let last := (blue (pixRead s (s.ledCount.toNat - 1))).getLsbD 0
    frameTime (encodeFrame s) + (if last then s.t1l.toNat else s.t0l.toNat) =
      bitsOf.count false * (s.t0h.toNat + s.t0l.toNat) +
      bitsOf.count true * (s.t1h.toNat + s.t1l.toNat) + s.resetGap.toNat ∧
    bitsOf.count false + bitsOf.count true = 24 * s.ledCount.toNat) ∧
  [1#4, 2#4, 3#4, 4#4].map (fun v => (timingRow v).map fun p =>
      (p.t0High.toNat + p.t0Low.toNat, p.t1High.toNat + p.t1Low.toNat, p.resetGap.toNat)) =
    [some (1150, 1300, 50000), some (1390, 1410, 280000), some (1250, 1250, 50000),
      some (1250, 1250, 50000)]

/-- What the adapter is asked to produce (R170): for each pulse in order, high for `HIGH` and then low for `LOW`,
with nothing between; the frame ends with the line low for `reset_gap`; its total time is the sum of
its durations. -/
def Obligations.FrameEndsLowForTheResetGap : Prop :=
  (∀ l : List Pulse, (waveform l).length = 2 * l.length ∧
    (∀ (k : Nat) (p : Pulse), l[k]? = some p →
      (waveform l)[2 * k]? = some (true, p.high) ∧
      (waveform l)[2 * k + 1]? = some (false, p.low)) ∧
    frameTime l = ((waveform l).map fun x => x.2.toNat).sum) ∧
  ∀ s : State, s.ledCount ≠ 0 → (waveform (encodeFrame s)).getLast? = some (false, s.resetGap)

/-- UPDATE in READY with at least one LED completes its first half: BUSY, with one transmit request of the
whole frame on the controller's line, `wait` 1, and itself pending; nothing else changes (R165, R171). The
halves are the model's (log 8), and so is the request's number (log 9). -/
def Obligations.UpdateIssuesOneRequest : Prop :=
  ∀ s : State, s.state = .ready → s.ledCount ≠ 0 → exec .update s =
    .next { s with
      state := .busy
      pending := some ⟨.update, s.txReqs.length⟩
      txReqs := s.txReqs ++ [⟨s.line, true, (encodeFrame s).map Pulse.descriptor⟩] }

/-- UPDATE (R165), in two halves (log 8), its request numbered by the model (log 9). With at least
one LED, from its start to its response: it goes BUSY with one transmit request of `24n` descriptors
on its line with `wait` 1, stays there as long as no answer comes, and on the answer `ok` to that
request is READY again with OK or TRANSMIT_FAILURE; nothing but the two output ports differs from
the state it started in. With no LEDs it answers OK at once and sends nothing; in UNINIT it answers
ILLEGAL_STATE and sends nothing. -/
def Obligations.UpdateTransmitsOnceAndAnswers : Prop :=
  (∀ (s : State) (ok : Bool), s.state = .ready → s.ledCount ≠ 0 → s.resetIn = .released →
    s.txPort = [] → s.pending = none →
    ∃ t, exec .update s = .next t ∧ t.state = .busy ∧ busyOut t = true ∧
      t.pending = some ⟨.update, s.txReqs.length⟩ ∧ t.responses = s.responses ∧
      t.txReqs = s.txReqs ++ [⟨s.line, true, (encodeFrame s).map Pulse.descriptor⟩] ∧
      ((encodeFrame s).map Pulse.descriptor).length = 24 * s.ledCount.toNat ∧
      step t = .next t ∧
      step (adapterAnswer ⟨s.txReqs.length, ok⟩ t) =
        .next { s with
          txReqs := s.txReqs ++ [⟨s.line, true, (encodeFrame s).map Pulse.descriptor⟩]
          responses := s.responses ++
            [⟨statusWord (if ok then .ok else .transmitFailure) .ready, []⟩] }) ∧
  (∀ s : State, s.state = .ready → s.ledCount = 0 → exec .update s =
    .next { s with responses := s.responses ++ [⟨statusWord .ok .ready, []⟩] }) ∧
  ∀ s : State, s.state = .uninit → exec .update s =
    .next { s with responses := s.responses ++ [⟨statusWord .illegalState .uninit, []⟩] }

/-- "Two UPDATEs with no SET_PIXEL and no reset between them send equal pulse lists" (R167): in a run of any
length from a constructed block with no SET_PIXEL among the words waiting, whatever the adapter
answers, every transmit request carries the pulses of the frame at the run's start. The spec marks
R167 "[derived: from rule R160, rule R166 and `10_state.md` rule R36]". -/
def Obligations.RunWithoutSetPixelSendsOneFrame : Prop :=
  ∀ (k : Nat) (s t : State), s.resetIn = .released → s.state ≠ .uninit →
    (∀ w ∈ s.cmdPort, ∀ i r g b, decode w ≠ .ok (.setPixel i r g b)) →
    Sys2Proof.core.run k s = .next t →
    ∃ qs, t.txReqs = s.txReqs ++ qs ∧
      ∀ q ∈ qs, q.pulses = (encodeFrame s).map Pulse.descriptor

/-- A run that sends a transmit request holds a supported variant with three bytes per LED: the Null profile
never reaches the encoder; and the request is a whole frame on the controller's line (R114, R171). -/
def Obligations.NullProfileNeverReachesTheEncoder : Prop :=
  ∀ s t : State, Inv s → step s = .next t → t.txReqs ≠ s.txReqs →
    supported s.variant = true ∧ s.bpl = 3 ∧ s.ledCount ≠ 0 ∧
    ∃ ps, t.txReqs = s.txReqs ++ [⟨s.line, true, ps⟩] ∧ ps.length = 24 * s.ledCount.toNat

/-! ### Frames of the commands, and rules about all of them -/

/-- GET_PIXEL, LOOKUP_PROFILE and GET_CONFIG have no side effect: whatever they answer, all that changes is
that one response has been sent, and repeating one gives the same response (R68). -/
def Obligations.ReadingCommandsHaveNoSideEffect : Prop :=
  ∀ (s t : State) (n : Count) (v : VariantCode),
    ∀ i ∈ [Instr.getPixel n, Instr.lookupProfile v, Instr.getConfig], exec i s = .next t →
      ∃ r u, t = { s with responses := s.responses ++ [r] } ∧ exec i t = .next u ∧
        u = { s with responses := s.responses ++ [r, r] }

/-- The frame of the commands that write: in any state, SET_PIXEL changes no register, no port but the
response port, and no pixel but the one it names; CONSTRUCT changes no pixel from its count on and
no port but the response port; UPDATE changes no pixel and no register but `STATE` (R36, R142, R113,
R165). -/
def Obligations.WritingCommandsLeaveTheRestAlone : Prop :=
  (∀ (s t : State) (i : Count) (r g b : Byte), exec (.setPixel i r g b) s = .next t →
    t = { s with pix := t.pix, responses := t.responses } ∧
    ∀ j ≠ i.toNat, pixRead t j = pixRead s j) ∧
  (∀ (s t : State) (v : VariantCode) (l : LineId) (c : Count),
    exec (.construct v l c) s = .next t →
    t.pending = s.pending ∧ t.maxLeds = s.maxLeds ∧ t.cmdPort = s.cmdPort ∧ t.txPort = s.txPort ∧
    t.resetIn = s.resetIn ∧ t.txReqs = s.txReqs ∧ t.abandoned = s.abandoned ∧
    t.responsesBefore = s.responsesBefore ∧ t.txReqsBefore = s.txReqsBefore ∧
    ∀ j ≥ c.toNat, pixRead t j = pixRead s j) ∧
  ∀ s t : State, exec .update s = .next t →
    t = { s with state := t.state, pending := t.pending, txReqs := t.txReqs, responses := t.responses } ∧
    ∀ j, pixRead t j = pixRead s j

/-- "A command whose result is not `OK` leaves `STATE`, `VARIANT`, `LINE`, `LED_COUNT`, the profile registers
and the Pixel Buffer exactly as they were when it started" (R202): a step that answers a word with an
error, a reserved one too, only takes it off the port and answers; and an UPDATE that ends in
TRANSMIT_FAILURE has gone to BUSY and back, with no net change. -/
def Obligations.ErrorsWriteNothing : Prop :=
  (∀ (s t : State) (r : Response), s.resetIn = .released → s.state ≠ .busy → step s = .next t →
    t.responses = s.responses ++ [r] → r.status.extractLsb' 0 4 ≠ ResultCode.ok.code →
    t = { s with cmdPort := s.cmdPort.tail, responses := s.responses ++ [r] } ∧ r.payload = []) ∧
  ∀ (s t u : State) (a : TxResp), s.state = .ready → s.ledCount ≠ 0 → s.resetIn = .released →
    s.txPort = [] → a.ok = false → exec .update s = .next t →
    step (adapterAnswer a t) = .next u → u.state ≠ .busy →
    u.responses = s.responses ++ [⟨statusWord .transmitFailure .ready, []⟩] ∧
    u.state = s.state ∧ u.pix = s.pix ∧
    (u.variant, u.line, u.ledCount, u.profile) = (s.variant, s.line, s.ledCount, s.profile)

/-- `VARIANT`, `LINE`, `LED_COUNT` and the profile registers are written only by a CONSTRUCT that succeeds and
by reset: a step without reset that changes any of them goes from UNINIT to READY and takes a word
that decodes to a CONSTRUCT (R27). -/
def Obligations.ConfigurationIsImmutable : Prop :=
  ∀ s t : State, s.resetIn = .released → step s = .next t →
    (t.variant, t.line, t.ledCount, t.profile) ≠ (s.variant, s.line, s.ledCount, s.profile) →
    s.state = .uninit ∧ t.state = .ready ∧
    ∃ v l c rest, s.cmdPort = encode (.construct v l c) :: rest ∧
      t.variant = v ∧ t.line = l ∧ t.ledCount = c

/-- "`STATE` leaves `READY` for `UNINIT` only by reset", and the lifecycle has no other edge than
UNINIT to READY, READY to BUSY and back (R21). -/
def Obligations.LifecycleHasOnlyItsEdges : Prop :=
  ∀ s t : State, s.resetIn = .released → step s = .next t → t.state ≠ s.state →
    (s.state = .uninit ∧ t.state = .ready) ∨ (s.state = .ready ∧ t.state = .busy) ∨
    (s.state = .busy ∧ t.state = .ready)

/-- A step only stops on an answer that the block assumes never comes (R171; the fault is the model's, log
10, and so is how an answer is known, log 9 and 11), and no step is refused. An answer that came before
its request does not stop the step (log 21). -/
def Obligations.OnlyAnAdapterBreachStops : Prop :=
  (∀ (s : State) (f : Fault), step s = .fault f ↔
    f = .adapterContract ∧ s.resetIn = .released ∧ s.state = .busy ∧
    ∃ r rest, s.txPort = r :: rest ∧ r.request ∉ s.abandoned ∧ ∀ p ∈ s.pending, p.request ≠ r.request) ∧
  ∀ (s : State) (r : Refusal), step s ≠ .refused r

/-! ### Invariants -/

/-- The invariant holds right after reset (the values are R230's, and for the capacity, the ports and the
Pixel Buffer the model's: log 2, 3, 5, 9, 12). -/
def Obligations.ResetMeetsTheInvariant : Prop := Inv State.reset ∧ AdapterHonest State.reset

/-- Every step keeps the invariant, from every state that meets it: UNINIT holds the Null profile, READY and
BUSY the row of a supported variant (R26), `LED_COUNT` within the capacity (R24), the Pixel Buffer in
canonical form and within its extent (R30), a transmit pending exactly in BUSY (R34), and every
response and request in its format (R93, R94, R97). The clauses on the canonical form, the requests'
numbers, the abandoned ones and where the run began are the model's (log 4, 9, 11, 12). -/
def Obligations.EveryStepKeepsTheInvariant : Prop :=
  ∀ s t : State, Inv s → step s = .next t → Inv t

/-- What the outside world does between two steps keeps the invariant: a word issued, an answer of the
adapter, a reset asserted. The three inputs are the model's (log 5, 7, 9). -/
def Obligations.InputsKeepTheInvariant : Prop :=
  ∀ s : State, Inv s → (∀ w, Inv (issueCommand w s)) ∧ (∀ r, Inv (adapterAnswer r s)) ∧
    ∀ kind, Inv (assertReset kind s)

/-- With an adapter that keeps its side of the contract the block never stops: every step goes on, and the
contract is kept by the step (R171, R200). The contract is stated with the model's request numbers and
abandoned requests (log 9, 11). -/
def Obligations.HonestAdapterNeverStopsTheBlock : Prop :=
  ∀ s : State, Inv s → AdapterHonest s → ∃ t, step s = .next t ∧ Inv t ∧ AdapterHonest t

/-- An UPDATE that awaits its answer ends when the answer comes, however many late answers to abandoned
requests come before it: after one step for each of them and one more, the block is READY with the
response of the answer, and the pixels and the configuration are as they were (R165, R171, R232). The
numbers by which the answers are told apart (log 9), their order on the port and the one step for each
late answer (log 11) are the model's choices. -/
def Obligations.UpdateEndsAfterTheLateAnswers : Prop :=
  ∀ (s : State) (late : List TxResp) (n : Nat) (ok : Bool), s.resetIn = .released → s.state = .busy →
    s.pending = some ⟨.update, n⟩ → s.txPort = late ++ [⟨n, ok⟩] →
    (late.map (·.request)).Nodup → (∀ r ∈ late, r.request ∈ s.abandoned ∧ r.request ≠ n) →
    ∃ t, Sys2Proof.core.run (late.length + 1) s = .next t ∧ t.state = .ready ∧ t.pending = none ∧
      t.txPort = [] ∧ t.cmdPort = s.cmdPort ∧ t.txReqs = s.txReqs ∧ t.pix = s.pix ∧
      t.responses = s.responses ++ [⟨statusWord (if ok then .ok else .transmitFailure) .ready, []⟩] ∧
      (t.variant, t.line, t.ledCount, t.profile) = (s.variant, s.line, s.ledCount, s.profile)
end

