-- ==== Sys2Proof/Laws/State.lean ====
section
/-! SUPPORT. One lemma per field of `State` and operation that updates a state, each true by `rfl`, so that
no later proof unfolds a record update. -/

namespace Sys2Proof.Machine

/-- An error is a response with no payload (R10). -/
@[simp] theorem raiseError_eq (e : ResultCode) (s : State) : raiseError e s = respond e [] s := rfl

section
variable (r : ResultCode) (payload : List ResponseWord) (s : State)

@[simp] theorem respond_state : (respond r payload s).state = s.state := rfl
@[simp] theorem respond_variant : (respond r payload s).variant = s.variant := rfl
@[simp] theorem respond_line : (respond r payload s).line = s.line := rfl
@[simp] theorem respond_ledCount : (respond r payload s).ledCount = s.ledCount := rfl
@[simp] theorem respond_t0h : (respond r payload s).t0h = s.t0h := rfl
@[simp] theorem respond_t0l : (respond r payload s).t0l = s.t0l := rfl
@[simp] theorem respond_t1h : (respond r payload s).t1h = s.t1h := rfl
@[simp] theorem respond_t1l : (respond r payload s).t1l = s.t1l := rfl
@[simp] theorem respond_resetGap : (respond r payload s).resetGap = s.resetGap := rfl
@[simp] theorem respond_bpl : (respond r payload s).bpl = s.bpl := rfl
@[simp] theorem respond_pix : (respond r payload s).pix = s.pix := rfl
@[simp] theorem respond_pending : (respond r payload s).pending = s.pending := rfl
@[simp] theorem respond_maxLeds : (respond r payload s).maxLeds = s.maxLeds := rfl
@[simp] theorem respond_cmdPort : (respond r payload s).cmdPort = s.cmdPort := rfl
@[simp] theorem respond_txPort : (respond r payload s).txPort = s.txPort := rfl
@[simp] theorem respond_resetIn : (respond r payload s).resetIn = s.resetIn := rfl
@[simp] theorem respond_responses :
    (respond r payload s).responses =
      s.responses ++ [⟨statusWord r s.state, payload⟩] := rfl
@[simp] theorem respond_txReqs : (respond r payload s).txReqs = s.txReqs := rfl
@[simp] theorem respond_abandoned : (respond r payload s).abandoned = s.abandoned := rfl
@[simp] theorem respond_responsesBefore :
    (respond r payload s).responsesBefore = s.responsesBefore := rfl
@[simp] theorem respond_txReqsBefore : (respond r payload s).txReqsBefore = s.txReqsBefore := rfl

end

section
variable (p : Profile) (s : State)

@[simp] theorem latchProfile_state : (latchProfile p s).state = s.state := rfl
@[simp] theorem latchProfile_variant : (latchProfile p s).variant = s.variant := rfl
@[simp] theorem latchProfile_line : (latchProfile p s).line = s.line := rfl
@[simp] theorem latchProfile_ledCount : (latchProfile p s).ledCount = s.ledCount := rfl
@[simp] theorem latchProfile_t0h : (latchProfile p s).t0h = p.t0High := rfl
@[simp] theorem latchProfile_t0l : (latchProfile p s).t0l = p.t0Low := rfl
@[simp] theorem latchProfile_t1h : (latchProfile p s).t1h = p.t1High := rfl
@[simp] theorem latchProfile_t1l : (latchProfile p s).t1l = p.t1Low := rfl
@[simp] theorem latchProfile_resetGap : (latchProfile p s).resetGap = p.resetGap := rfl
@[simp] theorem latchProfile_bpl : (latchProfile p s).bpl = p.bytesPerLed := rfl
@[simp] theorem latchProfile_pix : (latchProfile p s).pix = s.pix := rfl
@[simp] theorem latchProfile_pending : (latchProfile p s).pending = s.pending := rfl
@[simp] theorem latchProfile_maxLeds : (latchProfile p s).maxLeds = s.maxLeds := rfl
@[simp] theorem latchProfile_cmdPort : (latchProfile p s).cmdPort = s.cmdPort := rfl
@[simp] theorem latchProfile_txPort : (latchProfile p s).txPort = s.txPort := rfl
@[simp] theorem latchProfile_resetIn : (latchProfile p s).resetIn = s.resetIn := rfl
@[simp] theorem latchProfile_responses : (latchProfile p s).responses = s.responses := rfl
@[simp] theorem latchProfile_txReqs : (latchProfile p s).txReqs = s.txReqs := rfl
@[simp] theorem latchProfile_abandoned : (latchProfile p s).abandoned = s.abandoned := rfl
@[simp] theorem latchProfile_responsesBefore :
    (latchProfile p s).responsesBefore = s.responsesBefore := rfl
@[simp] theorem latchProfile_txReqsBefore : (latchProfile p s).txReqsBefore = s.txReqsBefore := rfl

end

section
variable (v : VariantCode) (l : LineId) (c : Count) (s : State)

@[simp] theorem latchConfig_state : (latchConfig v l c s).state = s.state := rfl
@[simp] theorem latchConfig_variant : (latchConfig v l c s).variant = v := rfl
@[simp] theorem latchConfig_line : (latchConfig v l c s).line = l := rfl
@[simp] theorem latchConfig_ledCount : (latchConfig v l c s).ledCount = c := rfl
@[simp] theorem latchConfig_t0h : (latchConfig v l c s).t0h = s.t0h := rfl
@[simp] theorem latchConfig_t0l : (latchConfig v l c s).t0l = s.t0l := rfl
@[simp] theorem latchConfig_t1h : (latchConfig v l c s).t1h = s.t1h := rfl
@[simp] theorem latchConfig_t1l : (latchConfig v l c s).t1l = s.t1l := rfl
@[simp] theorem latchConfig_resetGap : (latchConfig v l c s).resetGap = s.resetGap := rfl
@[simp] theorem latchConfig_bpl : (latchConfig v l c s).bpl = s.bpl := rfl
@[simp] theorem latchConfig_pix : (latchConfig v l c s).pix = s.pix := rfl
@[simp] theorem latchConfig_pending : (latchConfig v l c s).pending = s.pending := rfl
@[simp] theorem latchConfig_maxLeds : (latchConfig v l c s).maxLeds = s.maxLeds := rfl
@[simp] theorem latchConfig_cmdPort : (latchConfig v l c s).cmdPort = s.cmdPort := rfl
@[simp] theorem latchConfig_txPort : (latchConfig v l c s).txPort = s.txPort := rfl
@[simp] theorem latchConfig_resetIn : (latchConfig v l c s).resetIn = s.resetIn := rfl
@[simp] theorem latchConfig_responses : (latchConfig v l c s).responses = s.responses := rfl
@[simp] theorem latchConfig_txReqs : (latchConfig v l c s).txReqs = s.txReqs := rfl
@[simp] theorem latchConfig_abandoned : (latchConfig v l c s).abandoned = s.abandoned := rfl
@[simp] theorem latchConfig_responsesBefore :
    (latchConfig v l c s).responsesBefore = s.responsesBefore := rfl
@[simp] theorem latchConfig_txReqsBefore :
    (latchConfig v l c s).txReqsBefore = s.txReqsBefore := rfl

end

section
variable (i : Nat) (px : Pixel) (s : State)

@[simp] theorem pixWrite_state : (pixWrite i px s).state = s.state := rfl
@[simp] theorem pixWrite_variant : (pixWrite i px s).variant = s.variant := rfl
@[simp] theorem pixWrite_line : (pixWrite i px s).line = s.line := rfl
@[simp] theorem pixWrite_ledCount : (pixWrite i px s).ledCount = s.ledCount := rfl
@[simp] theorem pixWrite_t0h : (pixWrite i px s).t0h = s.t0h := rfl
@[simp] theorem pixWrite_t0l : (pixWrite i px s).t0l = s.t0l := rfl
@[simp] theorem pixWrite_t1h : (pixWrite i px s).t1h = s.t1h := rfl
@[simp] theorem pixWrite_t1l : (pixWrite i px s).t1l = s.t1l := rfl
@[simp] theorem pixWrite_resetGap : (pixWrite i px s).resetGap = s.resetGap := rfl
@[simp] theorem pixWrite_bpl : (pixWrite i px s).bpl = s.bpl := rfl
@[simp] theorem pixWrite_pix : (pixWrite i px s).pix = s.pix.write i px := rfl
@[simp] theorem pixWrite_pending : (pixWrite i px s).pending = s.pending := rfl
@[simp] theorem pixWrite_maxLeds : (pixWrite i px s).maxLeds = s.maxLeds := rfl
@[simp] theorem pixWrite_cmdPort : (pixWrite i px s).cmdPort = s.cmdPort := rfl
@[simp] theorem pixWrite_txPort : (pixWrite i px s).txPort = s.txPort := rfl
@[simp] theorem pixWrite_resetIn : (pixWrite i px s).resetIn = s.resetIn := rfl
@[simp] theorem pixWrite_responses : (pixWrite i px s).responses = s.responses := rfl
@[simp] theorem pixWrite_txReqs : (pixWrite i px s).txReqs = s.txReqs := rfl
@[simp] theorem pixWrite_abandoned : (pixWrite i px s).abandoned = s.abandoned := rfl
@[simp] theorem pixWrite_responsesBefore :
    (pixWrite i px s).responsesBefore = s.responsesBefore := rfl
@[simp] theorem pixWrite_txReqsBefore : (pixWrite i px s).txReqsBefore = s.txReqsBefore := rfl

end

section
variable (c : Count) (s : State)

@[simp] theorem allocate_state : (allocate c s).state = s.state := rfl
@[simp] theorem allocate_variant : (allocate c s).variant = s.variant := rfl
@[simp] theorem allocate_line : (allocate c s).line = s.line := rfl
@[simp] theorem allocate_ledCount : (allocate c s).ledCount = s.ledCount := rfl
@[simp] theorem allocate_t0h : (allocate c s).t0h = s.t0h := rfl
@[simp] theorem allocate_t0l : (allocate c s).t0l = s.t0l := rfl
@[simp] theorem allocate_t1h : (allocate c s).t1h = s.t1h := rfl
@[simp] theorem allocate_t1l : (allocate c s).t1l = s.t1l := rfl
@[simp] theorem allocate_resetGap : (allocate c s).resetGap = s.resetGap := rfl
@[simp] theorem allocate_bpl : (allocate c s).bpl = s.bpl := rfl
@[simp] theorem allocate_pix : (allocate c s).pix = s.pix.clearBelow c.toNat := rfl
@[simp] theorem allocate_pending : (allocate c s).pending = s.pending := rfl
@[simp] theorem allocate_maxLeds : (allocate c s).maxLeds = s.maxLeds := rfl
@[simp] theorem allocate_cmdPort : (allocate c s).cmdPort = s.cmdPort := rfl
@[simp] theorem allocate_txPort : (allocate c s).txPort = s.txPort := rfl
@[simp] theorem allocate_resetIn : (allocate c s).resetIn = s.resetIn := rfl
@[simp] theorem allocate_responses : (allocate c s).responses = s.responses := rfl
@[simp] theorem allocate_txReqs : (allocate c s).txReqs = s.txReqs := rfl
@[simp] theorem allocate_abandoned : (allocate c s).abandoned = s.abandoned := rfl
@[simp] theorem allocate_responsesBefore : (allocate c s).responsesBefore = s.responsesBefore := rfl
@[simp] theorem allocate_txReqsBefore : (allocate c s).txReqsBefore = s.txReqsBefore := rfl

end

section
variable (i : Instr) (l : LineId) (w : Bool) (ps : List Descriptor) (s : State)

@[simp] theorem txIssue_state : (txIssue i l w ps s).state = s.state := rfl
@[simp] theorem txIssue_variant : (txIssue i l w ps s).variant = s.variant := rfl
@[simp] theorem txIssue_line : (txIssue i l w ps s).line = s.line := rfl
@[simp] theorem txIssue_ledCount : (txIssue i l w ps s).ledCount = s.ledCount := rfl
@[simp] theorem txIssue_t0h : (txIssue i l w ps s).t0h = s.t0h := rfl
@[simp] theorem txIssue_t0l : (txIssue i l w ps s).t0l = s.t0l := rfl
@[simp] theorem txIssue_t1h : (txIssue i l w ps s).t1h = s.t1h := rfl
@[simp] theorem txIssue_t1l : (txIssue i l w ps s).t1l = s.t1l := rfl
@[simp] theorem txIssue_resetGap : (txIssue i l w ps s).resetGap = s.resetGap := rfl
@[simp] theorem txIssue_bpl : (txIssue i l w ps s).bpl = s.bpl := rfl
@[simp] theorem txIssue_pix : (txIssue i l w ps s).pix = s.pix := rfl
@[simp] theorem txIssue_pending : (txIssue i l w ps s).pending = some ⟨i, s.txReqs.length⟩ := rfl
@[simp] theorem txIssue_maxLeds : (txIssue i l w ps s).maxLeds = s.maxLeds := rfl
@[simp] theorem txIssue_cmdPort : (txIssue i l w ps s).cmdPort = s.cmdPort := rfl
@[simp] theorem txIssue_txPort : (txIssue i l w ps s).txPort = s.txPort := rfl
@[simp] theorem txIssue_resetIn : (txIssue i l w ps s).resetIn = s.resetIn := rfl
@[simp] theorem txIssue_responses : (txIssue i l w ps s).responses = s.responses := rfl
@[simp] theorem txIssue_txReqs : (txIssue i l w ps s).txReqs = s.txReqs ++ [⟨l, w, ps⟩] := rfl
@[simp] theorem txIssue_abandoned : (txIssue i l w ps s).abandoned = s.abandoned := rfl
@[simp] theorem txIssue_responsesBefore :
    (txIssue i l w ps s).responsesBefore = s.responsesBefore := rfl
@[simp] theorem txIssue_txReqsBefore : (txIssue i l w ps s).txReqsBefore = s.txReqsBefore := rfl

end

section
variable (ok : Bool) (s : State)

@[simp] theorem txFinish_state : (txFinish ok s).state = .ready := rfl
@[simp] theorem txFinish_variant : (txFinish ok s).variant = s.variant := rfl
@[simp] theorem txFinish_line : (txFinish ok s).line = s.line := rfl
@[simp] theorem txFinish_ledCount : (txFinish ok s).ledCount = s.ledCount := rfl
@[simp] theorem txFinish_t0h : (txFinish ok s).t0h = s.t0h := rfl
@[simp] theorem txFinish_t0l : (txFinish ok s).t0l = s.t0l := rfl
@[simp] theorem txFinish_t1h : (txFinish ok s).t1h = s.t1h := rfl
@[simp] theorem txFinish_t1l : (txFinish ok s).t1l = s.t1l := rfl
@[simp] theorem txFinish_resetGap : (txFinish ok s).resetGap = s.resetGap := rfl
@[simp] theorem txFinish_bpl : (txFinish ok s).bpl = s.bpl := rfl
@[simp] theorem txFinish_pix : (txFinish ok s).pix = s.pix := rfl
@[simp] theorem txFinish_pending : (txFinish ok s).pending = none := rfl
@[simp] theorem txFinish_maxLeds : (txFinish ok s).maxLeds = s.maxLeds := rfl
@[simp] theorem txFinish_cmdPort : (txFinish ok s).cmdPort = s.cmdPort := rfl
@[simp] theorem txFinish_txPort : (txFinish ok s).txPort = s.txPort := rfl
@[simp] theorem txFinish_resetIn : (txFinish ok s).resetIn = s.resetIn := rfl
@[simp] theorem txFinish_responses :
    (txFinish ok s).responses =
      s.responses ++ [⟨statusWord (if ok then .ok else .transmitFailure) .ready, []⟩] := rfl
@[simp] theorem txFinish_txReqs : (txFinish ok s).txReqs = s.txReqs := rfl
@[simp] theorem txFinish_abandoned : (txFinish ok s).abandoned = s.abandoned := rfl
@[simp] theorem txFinish_responsesBefore :
    (txFinish ok s).responsesBefore = s.responsesBefore := rfl
@[simp] theorem txFinish_txReqsBefore : (txFinish ok s).txReqsBefore = s.txReqsBefore := rfl

end

section
variable (s : State)

@[simp] theorem resetEvent_state : (resetEvent s).state = .uninit := rfl
@[simp] theorem resetEvent_variant : (resetEvent s).variant = variantNull := rfl
@[simp] theorem resetEvent_line : (resetEvent s).line = 0 := rfl
@[simp] theorem resetEvent_ledCount : (resetEvent s).ledCount = 0 := rfl
@[simp] theorem resetEvent_t0h : (resetEvent s).t0h = 0 := rfl
@[simp] theorem resetEvent_t0l : (resetEvent s).t0l = 0 := rfl
@[simp] theorem resetEvent_t1h : (resetEvent s).t1h = 0 := rfl
@[simp] theorem resetEvent_t1l : (resetEvent s).t1l = 0 := rfl
@[simp] theorem resetEvent_resetGap : (resetEvent s).resetGap = 0 := rfl
@[simp] theorem resetEvent_bpl : (resetEvent s).bpl = 0 := rfl
@[simp] theorem resetEvent_pix : (resetEvent s).pix = s.pix := rfl
@[simp] theorem resetEvent_pending : (resetEvent s).pending = none := rfl
@[simp] theorem resetEvent_maxLeds : (resetEvent s).maxLeds = s.maxLeds := rfl
@[simp] theorem resetEvent_cmdPort : (resetEvent s).cmdPort = s.cmdPort := rfl
@[simp] theorem resetEvent_txPort : (resetEvent s).txPort = s.txPort := rfl
@[simp] theorem resetEvent_resetIn : (resetEvent s).resetIn = s.resetIn := rfl
@[simp] theorem resetEvent_responses : (resetEvent s).responses = s.responses := rfl
@[simp] theorem resetEvent_txReqs : (resetEvent s).txReqs = s.txReqs := rfl
@[simp] theorem resetEvent_abandoned :
    (resetEvent s).abandoned =
      s.abandoned ++ s.pending.toList.map (·.request) := rfl
@[simp] theorem resetEvent_responsesBefore :
    (resetEvent s).responsesBefore = s.responses.length := rfl
@[simp] theorem resetEvent_txReqsBefore : (resetEvent s).txReqsBefore = s.txReqs.length := rfl

end

end Sys2Proof.Machine
end

