-- ==== Sys2Proof/Laws/Memory.lean ====
section
/-! SUPPORT. The laws of the Pixel Buffer's storage: reading after writing, and every operation keeps the
canonical form and the extent. -/

namespace Sys2Proof.Machine

/-- A listed entry lies at or above the head's index, so nothing is listed below it. -/
theorem Memory.read_below (m : Memory) (i : Nat) (h : ∀ c ∈ m, i < c.1) :
    m.read i = Memory.unlisted := by
  induction m with
  | nil => rfl
  | cons c rest ih =>
    have hc := h c List.mem_cons_self
    simp only [Memory.read]
    rw [if_neg (by omega), ih fun d hd => h d (List.mem_cons_of_mem _ hd)]

/-- A write is read back. -/
theorem Memory.read_write_same (m : Memory) (hm : m.wf) (i : Nat) (v : Pixel) :
    (m.write i v).read i = v := by
  induction m with
  | nil => by_cases h : v = Memory.unlisted <;> simp [Memory.write, Memory.read, h]
  | cons c rest ih =>
    obtain ⟨k, x⟩ := c
    obtain ⟨hp, hu⟩ := hm
    have hp' := List.pairwise_cons.1 hp
    have hrest : Memory.wf rest := ⟨hp'.2, fun d hd => hu d (List.mem_cons_of_mem _ hd)⟩
    simp only [Memory.write]
    split
    · rename_i hik
      split
      · rename_i hv
        rw [Memory.read_below, hv]
        intro d hd
        rcases List.mem_cons.1 hd with rfl | hd
        · exact hik
        · exact Nat.lt_trans hik (hp'.1 d hd)
      · simp [Memory.read]
    · split
      · rename_i hik
        split
        · rename_i hv
          rw [Memory.read_below, hv]
          intro d hd
          exact hik ▸ hp'.1 d hd
        · simp [Memory.read]
      · rename_i h1 h2
        simp only [Memory.read]
        rw [if_neg (by omega)]
        exact ih hrest

/-- A write leaves every other index alone. -/
theorem Memory.read_write_other (m : Memory) (i j : Nat) (v : Pixel) (h : j ≠ i) :
    (m.write i v).read j = m.read j := by
  induction m with
  | nil => by_cases hv : v = Memory.unlisted <;> simp [Memory.write, Memory.read, hv, Ne.symm h]
  | cons c rest ih =>
    obtain ⟨k, x⟩ := c
    simp only [Memory.write]
    split
    · split
      · rfl
      · simp [Memory.read, Ne.symm h]
    · split
      · rename_i hik
        split <;> simp [Memory.read, ← hik, Ne.symm h]
      · simp [Memory.read, ih]

/-- Zeroing below `n` reads as nothing listed there and as before from `n` on. -/
theorem Memory.read_clearBelow (m : Memory) (n i : Nat) :
    (m.clearBelow n).read i = if i < n then Memory.unlisted else m.read i := by
  induction m with
  | nil => simp [Memory.clearBelow, Memory.read]
  | cons c rest ih =>
    obtain ⟨k, x⟩ := c
    simp only [Memory.clearBelow] at ih ⊢
    by_cases hk : n ≤ k
    · rw [List.filter_cons_of_pos (by simpa using hk)]
      simp only [Memory.read, ih]
      by_cases hki : k = i
      · simp [hki, Nat.not_lt.2 (hki ▸ hk)]
      · simp [hki]
    · rw [List.filter_cons_of_neg (by simpa using hk), ih]
      by_cases hi : i < n
      · simp [hi]
      · rw [if_neg hi, if_neg hi, Memory.read, if_neg (by omega)]

/-- What a write can list: what was listed, or the entry written. -/
theorem Memory.mem_write {m : Memory} {i : Nat} {v : Pixel} {c : Nat × Pixel}
    (h : c ∈ m.write i v) : c ∈ m ∨ (c = (i, v) ∧ v ≠ Memory.unlisted) := by
  induction m with
  | nil =>
    simp only [Memory.write] at h
    split at h
    · simp at h
    · exact .inr ⟨by simpa using h, ‹_›⟩
  | cons d rest ih =>
    obtain ⟨k, x⟩ := d
    simp only [Memory.write] at h
    split at h
    · split at h
      · exact .inl h
      · rcases List.mem_cons.1 h with rfl | h
        · exact .inr ⟨rfl, ‹_›⟩
        · exact .inl h
    · split at h
      · split at h
        · exact .inl (List.mem_cons_of_mem _ h)
        · rcases List.mem_cons.1 h with rfl | h
          · exact .inr ⟨rfl, ‹_›⟩
          · exact .inl (List.mem_cons_of_mem _ h)
      · rcases List.mem_cons.1 h with rfl | h
        · exact .inl List.mem_cons_self
        · rcases ih h with h | h
          · exact .inl (List.mem_cons_of_mem _ h)
          · exact .inr h

/-- A write keeps the canonical form. -/
theorem Memory.wf_write {m : Memory} (hm : m.wf) (i : Nat) (v : Pixel) : (m.write i v).wf := by
  refine ⟨?_, fun c hc => ?_⟩
  · induction m with
    | nil => by_cases h : v = Memory.unlisted <;> simp [Memory.write, h]
    | cons d rest ih =>
      obtain ⟨k, x⟩ := d
      obtain ⟨hp, hu⟩ := hm
      have hp' := List.pairwise_cons.1 hp
      have hrest : Memory.wf rest := ⟨hp'.2, fun d hd => hu d (List.mem_cons_of_mem _ hd)⟩
      simp only [Memory.write]
      split
      · rename_i hik
        split
        · exact hp
        · refine List.pairwise_cons.2 ⟨fun d hd => ?_, hp⟩
          rcases List.mem_cons.1 hd with rfl | hd
          · exact hik
          · exact Nat.lt_trans hik (hp'.1 d hd)
      · split
        · rename_i hik
          subst hik
          split
          · exact hp'.2
          · exact List.pairwise_cons.2 ⟨hp'.1, hp'.2⟩
        · refine List.pairwise_cons.2 ⟨fun d hd => ?_, ih hrest⟩
          rcases Memory.mem_write hd with hd | ⟨rfl, _⟩
          · exact hp'.1 d hd
          · show k < i
            omega
  · rcases Memory.mem_write hc with h | ⟨rfl, h⟩
    · exact hm.2 c h
    · exact h

/-- Zeroing keeps the canonical form. -/
theorem Memory.wf_clearBelow {m : Memory} (hm : m.wf) (n : Nat) : (m.clearBelow n).wf :=
  ⟨hm.1.filter _, fun c hc => hm.2 c (List.mem_filter.1 hc).1⟩

/-- A write below the extent keeps every entry below it. -/
theorem Memory.extent_write {m : Memory} {n : Nat} (hm : ∀ c ∈ m, c.1 < n) {i : Nat} (hi : i < n)
    (v : Pixel) : ∀ c ∈ m.write i v, c.1 < n := by
  intro c hc
  rcases Memory.mem_write hc with h | ⟨rfl, _⟩
  · exact hm c h
  · exact hi

/-- Zeroing keeps every entry below the extent. -/
theorem Memory.extent_clearBelow {m : Memory} {n : Nat} (hm : ∀ c ∈ m, c.1 < n) (k : Nat) :
    ∀ c ∈ m.clearBelow k, c.1 < n := fun c hc => hm c (List.mem_filter.1 hc).1

/-- The reset state's Pixel Buffer is in canonical form. -/
theorem reset_pix_wf : State.reset.pix.wf := ⟨List.Pairwise.nil, fun _ h => by simp [State.reset] at h⟩

/-- `PixRead` after `PixWrite` at the same index. -/
theorem pixRead_pixWrite_same (s : State) (hs : s.pix.wf) (i : Nat) (px : Pixel) :
    pixRead (pixWrite i px s) i = px := Memory.read_write_same _ hs _ _

/-- `PixRead` after `PixWrite` at another index. -/
theorem pixRead_pixWrite_other (s : State) (i j : Nat) (px : Pixel) (h : j ≠ i) :
    pixRead (pixWrite i px s) j = pixRead s j := Memory.read_write_other _ _ _ _ h

/-- `PixRead` after `Allocate(count)`. -/
theorem pixRead_allocate (s : State) (count : Count) (i : Nat) :
    pixRead (allocate count s) i = if i < count.toNat then 0 else pixRead s i :=
  Memory.read_clearBelow _ _ _

/-- `PixRead` reads the Pixel Buffer alone. -/
theorem pixRead_congr {s t : State} (h : t.pix = s.pix) (i : Nat) : pixRead t i = pixRead s i := by
  simp [pixRead, h]

end Sys2Proof.Machine
end

