-- ==== Sys2Proof/Laws/Encoder.lean ====
section
/-! SUPPORT. One lemma per stage of the Frame Encoder: its length, its entries, what it depends on. -/

namespace Sys2Proof.Machine

/-- The bit-0 and bit-1 shapes (R29, R162). -/
theorem bitPulse_eq (s : State) (bit : Bool) :
    bitPulse s bit = if bit then ⟨s.t1h, s.t1l⟩ else ⟨s.t0h, s.t0l⟩ := by
  cases bit <;> rfl

theorem visiblePixels_length (s : State) : (visiblePixels s).length = s.ledCount.toNat := by
  simp [visiblePixels]

/-- Three bytes per pixel (R161). -/
theorem serialize_length (px : List Pixel) : (serialize px).length = 3 * px.length := by
  simp [serialize, List.length_flatMap, Nat.mul_comm]

/-- Eight pulses per byte (R162). -/
theorem expand_length (s : State) (bs : List Byte) : (expand s bs).length = 8 * bs.length := by
  simp [expand, List.length_flatMap, bytePulses, Nat.mul_comm]

theorem patch_nil (s : State) : patch s [] = [] := rfl

/-- The patch of a sequence with a last pulse (R163). -/
theorem patch_append (s : State) (seq : List Pulse) (p : Pulse) :
    patch s (seq ++ [p]) = seq ++ [⟨p.high, s.resetGap⟩] := by
  simp [patch]

theorem patch_length (s : State) (seq : List Pulse) : (patch s seq).length = seq.length := by
  rcases List.eq_nil_or_concat seq with rfl | ⟨l, p, rfl⟩
  · rfl
  · rw [List.concat_eq_append, patch_append]; simp

/-- Every pulse but the last is the unpatched one (R163). -/
theorem patch_getElem?_of_lt (s : State) (seq : List Pulse) (k : Nat) (h : k + 1 < seq.length) :
    (patch s seq)[k]? = seq[k]? := by
  rcases List.eq_nil_or_concat seq with rfl | ⟨l, p, rfl⟩
  · simp at h
  · rw [List.concat_eq_append] at h ⊢
    have hk : k < l.length := by simpa using h
    rw [patch_append, List.getElem?_append_left hk, List.getElem?_append_left hk]

/-- A frame of no pixels is empty. -/
theorem encodeFrame_of_zero (s : State) (h : s.ledCount = 0) : encodeFrame s = [] := by
  simp [encodeFrame, visiblePixels, h, serialize, expand, patch_nil]

/-- A frame of at least one pixel is not empty. -/
theorem encodeFrame_ne_nil (s : State) (h : s.ledCount ≠ 0) : encodeFrame s ≠ [] := by
  intro he
  have := congrArg List.length he
  simp only [encodeFrame, patch_length, expand_length, serialize_length, visiblePixels_length,
    List.length_nil] at this
  exact h (BitVec.eq_of_toNat_eq (by simpa using (by omega : s.ledCount.toNat = 0)))

/-- Pulse `8 j + k` of an expansion is that of bit `7 - k` of byte `j` (R162). -/
theorem expand_getElem? (s : State) (bs : List Byte) (j k : Nat) (hk : k < 8) :
    (expand s bs)[8 * j + k]? = bs[j]?.map fun b => bitPulse s (b.getLsbD (7 - k)) := by
  induction bs generalizing j with
  | nil => simp [expand]
  | cons b rest ih =>
    have hc : expand s (b :: rest) = bytePulses s b ++ expand s rest := by simp [expand]
    have hl : (bytePulses s b).length = 8 := rfl
    rw [hc]
    cases j with
    | zero =>
      rw [List.getElem?_append_left (by omega)]
      match k, hk with
      | 0, _ | 1, _ | 2, _ | 3, _ | 4, _ | 5, _ | 6, _ | 7, _ => simp [bytePulses]
    | succ j =>
      rw [List.getElem?_append_right (by omega), hl,
        show 8 * (j + 1) + k - 8 = 8 * j + k by omega, ih]
      simp

/-- Two states whose profile registers agree have the same shapes. -/
theorem bitPulse_congr {s t : State} (h : s.profile = t.profile) : bitPulse s = bitPulse t := by
  simp only [State.profile, Profile.mk.injEq] at h
  funext bit
  simp [bitPulse_eq, h]

/-- The frame is a function of the profile registers, `LED_COUNT` and the Pixel Buffer (R160). -/
theorem encodeFrame_congr {s t : State} (hp : s.profile = t.profile) (hn : s.ledCount = t.ledCount)
    (hx : s.pix = t.pix) : encodeFrame s = encodeFrame t := by
  have hv : visiblePixels s = visiblePixels t := by
    simp only [visiblePixels, hn]
    exact List.map_congr_left fun i _ => pixRead_congr hx i
  have hg : s.resetGap = t.resetGap := congrArg Profile.resetGap hp
  have hb : bytePulses s = bytePulses t := by
    funext b; simp only [bytePulses, bitPulse_congr hp]
  simp only [encodeFrame, patch, expand, hv, hg, hb]

end Sys2Proof.Machine
end

