-- ==== Sys2Proof/Laws/Encoding.lean ====
section
/-! SUPPORT. Command words as numbers: a field is a quotient and a remainder, and a format's word is the sum
of its fields at their places. Questions about encodings become linear arithmetic. -/

namespace Sys2Proof

/-- Concatenation as addition. -/
theorem toNat_append_add {m n : Nat} (x : BitVec m) (y : BitVec n) :
    (x ++ y).toNat = x.toNat * 2 ^ n + y.toNat := by
  rw [BitVec.toNat_append, ← Nat.shiftLeft_add_eq_or_of_lt y.isLt, Nat.shiftLeft_eq]

/-- A field as a number. -/
theorem bits_toNat (w : CommandWord) (lo width : Nat) :
    (bits w lo width).toNat = w.toNat / 2 ^ lo % 2 ^ width := by
  simp [bits, Nat.shiftRight_eq_div_pow]

/-- CONSTRUCT's word (R82). -/
theorem encode_construct_toNat (v : VariantCode) (l : LineId) (c : Count) :
    (encode (.construct v l c)).toNat =
      0x1000000000000000 + v.toNat * 2 ^ 56 + l.toNat * 2 ^ 48 + c.toNat := by
  rw [show encode (.construct v l c) =
    (0x1#4 ++ v ++ l ++ 0#16 ++ c : BitVec (4 + 4 + 8 + 16 + 32)) from rfl]
  simp only [toNat_append_add, BitVec.toNat_ofNat]
  omega

/-- SET_PIXEL's word (R83). -/
theorem encode_setPixel_toNat (i : Count) (r g b : Byte) :
    (encode (.setPixel i r g b)).toNat =
      0x2000000000000000 + r.toNat * 2 ^ 48 + g.toNat * 2 ^ 40 + b.toNat * 2 ^ 32 + i.toNat := by
  rw [show encode (.setPixel i r g b) =
    (0x2#4 ++ 0#4 ++ r ++ g ++ b ++ i : BitVec (4 + 4 + 8 + 8 + 8 + 32)) from rfl]
  simp only [toNat_append_add, BitVec.toNat_ofNat]
  omega

/-- GET_PIXEL's word (R84). -/
theorem encode_getPixel_toNat (i : Count) :
    (encode (.getPixel i)).toNat = 0x3000000000000000 + i.toNat := by
  rw [show encode (.getPixel i) = (0x3#4 ++ 0#28 ++ i : BitVec (4 + 28 + 32)) from rfl]
  simp only [toNat_append_add, BitVec.toNat_ofNat]
  omega

/-- UPDATE's word (R85). -/
theorem encode_update_toNat : (encode .update).toNat = 0x4000000000000000 := by decide

/-- LOOKUP_PROFILE's word (R86). -/
theorem encode_lookupProfile_toNat (v : VariantCode) :
    (encode (.lookupProfile v)).toNat = 0x5000000000000000 + v.toNat * 2 ^ 56 := by
  rw [show encode (.lookupProfile v) = (0x5#4 ++ v ++ 0#56 : BitVec (4 + 4 + 56)) from rfl]
  simp only [toNat_append_add, BitVec.toNat_ofNat]
  omega

/-- GET_CONFIG's word (R87). -/
theorem encode_getConfig_toNat : (encode .getConfig).toNat = 0x6000000000000000 := by decide

end Sys2Proof
end

