-- ==== Sys2Proof/Laws/PerInstr.lean ====
section
/-! SUPPORT. Facts about every command as syntax, one lemma per constructor: its word carries its opcode
(`30_encoding.md` rule R81), and it is well formed (log 1). -/

namespace Sys2Proof.Laws.OpcodeField

/-- The word of the command has the command's opcode in [63:60], and the command is well formed. -/
def Statement (i : Instr) : Prop := opcodeOf (encode i) = opcodeValue i ∧ i.wellFormed = true

/-- From the word as a number. -/
theorem of_toNat {i : Instr} (hw : i.wellFormed = true)
    (h : (encode i).toNat / 2 ^ 60 = (opcodeValue i).toNat) : Statement i := by
  refine ⟨BitVec.eq_of_toNat_eq ?_, hw⟩
  rw [opcodeOf, bits_toNat, h, Nat.mod_eq_of_lt (opcodeValue i).isLt]

theorem construct (v : VariantCode) (l : LineId) (c : Count) : Statement (.construct v l c) :=
  of_toNat rfl (by rw [encode_construct_toNat]; simp only [opcodeValue, BitVec.reduceToNat]; omega)

theorem setPixel (i : Count) (r g b : Byte) : Statement (.setPixel i r g b) :=
  of_toNat rfl (by rw [encode_setPixel_toNat]; simp only [opcodeValue, BitVec.reduceToNat]; omega)

theorem getPixel (i : Count) : Statement (.getPixel i) :=
  of_toNat rfl (by rw [encode_getPixel_toNat]; simp only [opcodeValue, BitVec.reduceToNat]; omega)

theorem update : Statement .update := of_toNat rfl (by decide)

theorem lookupProfile (v : VariantCode) : Statement (.lookupProfile v) :=
  of_toNat rfl (by rw [encode_lookupProfile_toNat]; simp only [opcodeValue, BitVec.reduceToNat]; omega)

theorem getConfig : Statement .getConfig := of_toNat rfl (by decide)

end Sys2Proof.Laws.OpcodeField
end

