-- ==== Sys2Proof/Laws/Step.lean ====
section
/-! SUPPORT. What each meaning and each part of a step can do, said once. -/

namespace Sys2Proof.Machine

/-- `TIMING_TABLE` of a supported variant is its row, and a supported variant has one. -/
theorem supportedRow_eq_some {v : VariantCode} {p : Profile} :
    supportedRow v = some p ↔ supported v = true ∧ timingRow v = some p := by
  simp only [supportedRow]
  split <;> simp_all

/-- Only an unsupported variant has no row to latch. -/
theorem supportedRow_eq_none {v : VariantCode} : supportedRow v = none ↔ supported v = false := by
  revert v; decide

/-- Every supported row has three bytes per LED (R111). -/
theorem supportedRow_bytes {v : VariantCode} {p : Profile} (h : supportedRow v = some p) :
    p.bytesPerLed = 3 := by
  revert v
  have : ∀ v : VariantCode, ∀ q ∈ supportedRow v, q.bytesPerLed = 3 := by decide
  exact fun {v} h => this v p h

/-- What CONSTRUCT can do (R113). -/
theorem execConstruct_cases {v : VariantCode} {l : LineId} {c : Count} {s t : State}
    (h : execConstruct v l c s = .next t) :
    (s.state ≠ .uninit ∧ t = respond .illegalState [] s) ∨
    (s.state = .uninit ∧ supported v = false ∧ t = respond .unsupportedVariant [] s) ∨
    (s.state = .uninit ∧ supported v = true ∧ s.maxLeds < c ∧
      t = respond .allocationFailure [] s) ∨
    ∃ p, s.state = .uninit ∧ supportedRow v = some p ∧ c ≤ s.maxLeds ∧
      t = respond .ok []
        { allocate c (latchConfig v l c (latchProfile p s)) with state := .ready } := by
  simp only [execConstruct, Host.Outcome.next.injEq] at h
  split at h
  · exact .inl ⟨‹_›, h.symm⟩
  · rename_i hs
    have hs : s.state = .uninit := by simpa using hs
    split at h
    · exact .inr (.inl ⟨hs, supportedRow_eq_none.1 ‹_›, h.symm⟩)
    · rename_i p hp
      split at h
      · rename_i ha
        exact .inr (.inr (.inl ⟨hs, (supportedRow_eq_some.1 hp).1,
          by simpa [allocateOk] using ha, h.symm⟩))
      · rename_i ha
        exact .inr (.inr (.inr ⟨p, hs, hp, by simpa [allocateOk] using ha, h.symm⟩))

/-- What SET_PIXEL can do (R142). -/
theorem execSetPixel_cases {i : Count} {r g b : Byte} {s t : State}
    (h : execSetPixel i r g b s = .next t) :
    (s.state ≠ .ready ∧ t = respond .illegalState [] s) ∨
    (s.state = .ready ∧ s.ledCount ≤ i ∧ t = respond .indexOutOfRange [] s) ∨
    (s.state = .ready ∧ i < s.ledCount ∧
      t = respond .ok [] (pixWrite i.toNat (packPixel r g b) s)) := by
  simp only [execSetPixel, Host.Outcome.next.injEq] at h
  split at h
  · exact .inl ⟨‹_›, h.symm⟩
  · rename_i hs
    split at h
    · rename_i hi
      exact .inr (.inl ⟨by simpa using hs, by simpa [indexInRange] using hi, h.symm⟩)
    · rename_i hi
      exact .inr (.inr ⟨by simpa using hs, by simpa [indexInRange] using hi, h.symm⟩)

/-- What GET_PIXEL can do (R143). -/
theorem execGetPixel_cases {i : Count} {s t : State} (h : execGetPixel i s = .next t) :
    (s.state ≠ .ready ∧ t = respond .illegalState [] s) ∨
    (s.state = .ready ∧ s.ledCount ≤ i ∧ t = respond .indexOutOfRange [] s) ∨
    (s.state = .ready ∧ i < s.ledCount ∧
      t = respond .ok [(pixRead s i.toNat).setWidth 32] s) := by
  simp only [execGetPixel, Host.Outcome.next.injEq] at h
  split at h
  · exact .inl ⟨‹_›, h.symm⟩
  · rename_i hs
    split at h
    · rename_i hi
      exact .inr (.inl ⟨by simpa using hs, by simpa [indexInRange] using hi, h.symm⟩)
    · rename_i hi
      exact .inr (.inr ⟨by simpa using hs, by simpa [indexInRange] using hi, h.symm⟩)

/-- What UPDATE can do before it awaits the adapter (R165). -/
theorem execUpdate_cases {s t : State} (h : execUpdate s = .next t) :
    (s.state ≠ .ready ∧ t = respond .illegalState [] s) ∨
    (s.state = .ready ∧ s.ledCount = 0 ∧ t = respond .ok [] s) ∨
    (s.state = .ready ∧ s.ledCount ≠ 0 ∧
      t = txIssue .update s.line true ((encodeFrame s).map Pulse.descriptor)
        { s with state := .busy }) := by
  simp only [execUpdate, Host.Outcome.next.injEq] at h
  split at h
  · exact .inl ⟨‹_›, h.symm⟩
  · rename_i hs
    have hs : s.state = .ready := by simpa using hs
    split at h
    · rename_i he
      have hn : s.ledCount = 0 := by
        by_contra hn
        exact encodeFrame_ne_nil s hn he
      exact .inr (.inl ⟨hs, hn, h.symm⟩)
    · rename_i p ps he
      have hn : s.ledCount ≠ 0 := by
        intro hn
        simp [encodeFrame_of_zero s hn] at he
      exact .inr (.inr ⟨hs, hn, by rw [he]; exact h.symm⟩)

/-- What LOOKUP_PROFILE can do (R115). -/
theorem execLookupProfile_cases {v : VariantCode} {s t : State}
    (h : execLookupProfile v s = .next t) :
    (timingRow v = none ∧ t = respond .unsupportedVariant [] s) ∨
    ∃ p, timingRow v = some p ∧ t = respond .ok p.words s := by
  simp only [execLookupProfile, Host.Outcome.next.injEq] at h
  split at h
  · exact .inl ⟨‹_›, h.symm⟩
  · rename_i p hp
    exact .inr ⟨p, hp, h.symm⟩

/-- Every command ends in a next state. -/
theorem exec_next (i : Instr) (s : State) : ∃ t, exec i s = .next t := by
  cases i <;> exact ⟨_, rfl⟩

/-- No command touches an input port, the capacity, the list of abandoned requests or where the run
began. -/
theorem exec_ports {i : Instr} {s t : State} (h : exec i s = .next t) :
    t.cmdPort = s.cmdPort ∧ t.txPort = s.txPort ∧ t.resetIn = s.resetIn ∧ t.maxLeds = s.maxLeds ∧
      t.abandoned = s.abandoned ∧ t.responsesBefore = s.responsesBefore ∧
      t.txReqsBefore = s.txReqsBefore := by
  cases i with
  | construct v l c =>
    rcases execConstruct_cases h with ⟨_, rfl⟩ | ⟨_, _, rfl⟩ | ⟨_, _, _, rfl⟩ | ⟨p, _, _, _, rfl⟩ <;>
      simp
  | setPixel i r g b =>
    rcases execSetPixel_cases h with ⟨_, rfl⟩ | ⟨_, _, rfl⟩ | ⟨_, _, rfl⟩ <;> simp
  | getPixel i => rcases execGetPixel_cases h with ⟨_, rfl⟩ | ⟨_, _, rfl⟩ | ⟨_, _, rfl⟩ <;> simp
  | update => rcases execUpdate_cases h with ⟨_, rfl⟩ | ⟨_, _, rfl⟩ | ⟨_, _, rfl⟩ <;> simp
  | lookupProfile v => rcases execLookupProfile_cases h with ⟨_, rfl⟩ | ⟨p, _, rfl⟩ <;> simp
  | getConfig => cases h; simp

/-- What a step with the reset released can do while BUSY. -/
theorem awaitTx_cases {s t : State} (h : awaitTx s = .next t) :
    (s.txPort = [] ∧ t = s) ∨
    ∃ r rest, s.txPort = r :: rest ∧
      ((answersPending r s = true ∧ t = txFinish r.ok { s with txPort := rest }) ∨
       (answersPending r s = false ∧ answersAbandoned r s = true ∧
         t = { s with txPort := rest, abandoned := s.abandoned.erase r.request })) := by
  unfold awaitTx at h
  split at h
  · exact .inl ⟨‹_›, by simpa using h.symm⟩
  · rename_i r rest he
    refine .inr ⟨r, rest, he, ?_⟩
    split at h
    · exact .inl ⟨‹_›, by simpa using h.symm⟩
    · rename_i hp
      split at h
      · exact .inr ⟨by simpa using hp, ‹_›, by simpa using h.symm⟩
      · cases h

/-- What a step with the reset released can do when not BUSY. -/
theorem takeCommand_cases {s t : State} (h : takeCommand s = .next t) :
    (s.cmdPort = [] ∧ t = s) ∨
    ∃ w rest, s.cmdPort = w :: rest ∧
      ((∃ i, decode w = .ok i ∧ exec i { s with cmdPort := rest } = .next t) ∨
       (∃ e, decode w = .error e ∧
         t = respond .reservedCommand [] { s with cmdPort := rest })) := by
  unfold takeCommand at h
  split at h
  · exact .inl ⟨‹_›, by simpa using h.symm⟩
  · rename_i w rest he
    refine .inr ⟨w, rest, he, ?_⟩
    split at h
    · exact .inl ⟨_, ‹_›, h⟩
    · exact .inr ⟨_, ‹_›, by simpa using h.symm⟩

/-- The three ways a step goes on: a reset, the wait for the adapter, a command. -/
theorem step_cases {s t : State} (h : step s = .next t) :
    (s.resetIn ≠ .released ∧ t = takeReset s) ∨
    (s.resetIn = .released ∧ s.state = .busy ∧ awaitTx s = .next t) ∨
    (s.resetIn = .released ∧ s.state ≠ .busy ∧ takeCommand s = .next t) := by
  unfold step at h
  split at h
  · exact .inl ⟨‹_›, by simpa using h.symm⟩
  · rename_i hr
    have hr : s.resetIn = .released := by simpa using hr
    split at h
    · exact .inr (.inl ⟨hr, ‹_›, h⟩)
    · exact .inr (.inr ⟨hr, ‹_›, h⟩)

/-- A command only adds to the records of what was sent. -/
theorem exec_records {i : Instr} {s t : State} (h : exec i s = .next t) :
    (∃ rs, t.responses = s.responses ++ rs) ∧ ∃ qs, t.txReqs = s.txReqs ++ qs := by
  cases i with
  | construct v l c =>
    rcases execConstruct_cases h with ⟨_, rfl⟩ | ⟨_, _, rfl⟩ | ⟨_, _, _, rfl⟩ | ⟨p, _, _, _, rfl⟩ <;>
      simp
  | setPixel i r g b =>
    rcases execSetPixel_cases h with ⟨_, rfl⟩ | ⟨_, _, rfl⟩ | ⟨_, _, rfl⟩ <;> simp
  | getPixel i => rcases execGetPixel_cases h with ⟨_, rfl⟩ | ⟨_, _, rfl⟩ | ⟨_, _, rfl⟩ <;> simp
  | update => rcases execUpdate_cases h with ⟨_, rfl⟩ | ⟨_, _, rfl⟩ | ⟨_, _, rfl⟩ <;> simp
  | lookupProfile v => rcases execLookupProfile_cases h with ⟨_, rfl⟩ | ⟨p, _, rfl⟩ <;> simp
  | getConfig => cases h; simp [respond]

/-- A step without reset leaves the reset input and where the run began, and only adds to the records of
what was sent. -/
theorem step_records {s t : State} (hr : s.resetIn = .released) (h : step s = .next t) :
    t.resetIn = .released ∧ t.responsesBefore = s.responsesBefore ∧
      t.txReqsBefore = s.txReqsBefore ∧ (∃ rs, t.responses = s.responses ++ rs) ∧
      ∃ qs, t.txReqs = s.txReqs ++ qs := by
  rcases step_cases h with ⟨hn, _⟩ | ⟨_, _, h⟩ | ⟨_, _, h⟩
  · exact absurd hr hn
  · rcases awaitTx_cases h with ⟨_, rfl⟩ | ⟨r, rest, _, ⟨_, rfl⟩ | ⟨_, _, rfl⟩⟩ <;> simp [hr]
  · rcases takeCommand_cases h with ⟨_, rfl⟩ | ⟨w, rest, _, ⟨i, _, h⟩ | ⟨_, _, rfl⟩⟩
    · simp [hr]
    · obtain ⟨_, _, h3, _, _, h6, h7⟩ := exec_ports h
      have hs := exec_records h
      exact ⟨h3.trans hr, h6, h7, hs⟩
    · simp [hr]

/-- One step of a run, of any machine. -/
theorem run_succ (M : Host.Core) (k : Nat) {s t : M.State} (h : M.step s = .next t) :
    M.run (k + 1) s = M.run k t := by
  simp [Host.Core.run, h]

/-- One step of a run of the block. -/
theorem run_succ_of_step {s t : State} (k : Nat) (h : step s = .next t) :
    Sys2Proof.core.run (k + 1) s = Sys2Proof.core.run k t := run_succ Sys2Proof.core k h

end Sys2Proof.Machine
end

