-- ==== Sys2Proof/Tests/Slice0.lean ====
section
/-! SUPPORT. Tests: words written out from the formats of `30_encoding.md`, the vectors of
`95_test_vectors.md` (each test names its vector), an ill-formed operand for each check, and for each
obligation with hypotheses a state and operands that meet all of them. -/

namespace Sys2Proof.Tests

open Sys2Proof Sys2Proof.Machine

/-! ### Small states -/

/-- The next state, if there is one. -/
def after (o : Host.Outcome State Fault Refusal) : Option State :=
  match o with
  | .next t => some t
  | .fault _ => none
  | .refused _ => none

/-- Right after reset, with `MAX_LEDS = 8` (the vectors' start state). -/
def uninit : State := { State.reset with maxLeds := 8 }

/-- After `CONSTRUCT A, n, 5`, with the pixels given. -/
def readyA (n : Count) (pix : Memory) : State :=
  { uninit with
    state := .ready, variant := 1, line := 5, ledCount := n
    t0h := 350, t0l := 800, t1h := 700, t1l := 600, resetGap := 50000, bpl := 3, pix := pix }

/-- `readyA` with an UPDATE in flight, its request the second one; the first was abandoned. -/
def busyA : State :=
  { readyA 1 [(0, 0x0A141E)] with
    state := .busy
    pending := some ⟨.update, 1⟩
    txReqs := [⟨5, true, List.replicate 24 0⟩, ⟨5, true, List.replicate 24 0⟩]
    abandoned := [0] }

/-- `s` with one word on the command port. -/
def withWord (w : CommandWord) (s : State) : State := { s with cmdPort := [w] }

/-- The last response of the next state. -/
def answer (o : Host.Outcome State Fault Refusal) : Option Response :=
  (after o).bind fun t => t.responses.getLast?

/-! ### Decoding: words written out bit by bit (R82 to R87) and V-DEC-1 to V-DEC-16 -/

theorem test_decode_construct_bits :
    decode 0b0001_0100_00000011_0000000000000000_00000000000000000000000000001001 =
      .ok (.construct 4 3 9) := by decide

theorem test_decode_setPixel_bits :
    decode 0b0010_0000_11111111_00000000_10000000_00000000000000000000000000000001 =
      .ok (.setPixel 1 255 0 128) := by decide

theorem test_decode_getPixel_bits :
    decode 0b0011_0000000000000000000000000000_10000000000000000000000000000001 =
      .ok (.getPixel 0x80000001) := by decide

theorem test_decode_update_bits :
    decode 0b0100_000000000000000000000000000000000000000000000000000000000000 = .ok .update := by
  decide

theorem test_decode_lookupProfile_bits :
    decode 0b0101_1010_00000000000000000000000000000000000000000000000000000000 =
      .ok (.lookupProfile 10) := by decide

theorem test_decode_getConfig_bits :
    decode 0b0110_000000000000000000000000000000000000000000000000000000000000 = .ok .getConfig := by
  decide

theorem test_decode_reserved_vectors :
    [0x0, 0x7000000000000000, 0xF000000000000000].map decode =
        List.replicate 3 (.error .opcode) ∧
      [0x1105000100000001, 0x210A141E00000000, 0x3000010000000000, 0x4000000000000001,
        0x5201000000000000, 0x6800000000000000].map decode = List.replicate 6 (.error .field) := by
  decide

theorem test_decode_legal_vectors :
    [0x1105000000000001, 0x1F00000000000000, 0x200A141E00000000, 0x30000000FFFFFFFF,
        0x4000000000000000, 0x5200000000000000, 0x6000000000000000].map decode =
      [.ok (.construct 1 5 1), .ok (.construct 15 0 0), .ok (.setPixel 0 10 20 30),
        .ok (.getPixel 0xFFFFFFFF), .ok .update, .ok (.lookupProfile 2), .ok .getConfig] := by
  decide

theorem test_decodeTableWord_construct :
    decodeTableWord 64 0x1105000000000001 = some (.construct 1 5 1) := by decide

/-- The word the host places is the next one performed, BUSY or not. -/
theorem test_withFetchWord :
    answer (step (uninit.withFetchWord 64 0x4000000000000000)) = some ⟨0x5, []⟩ ∧
      answer (step (busyA.withFetchWord 64 0x3000000000000000)) = some ⟨0x100, [0x0A141E]⟩ := by
  decide

/-! ### Well-formedness: each range check refuses an operand one too large (R98) -/

theorem test_wf_variant : (AsmStmt.construct 16 0 0).wellFormed = false := by decide
theorem test_wf_count : (AsmStmt.construct 0 (2 ^ 32) 0).wellFormed = false := by decide
theorem test_wf_line : (AsmStmt.construct 0 0 256).wellFormed = false := by decide
theorem test_wf_setPixel_index : (AsmStmt.setPixel (2 ^ 32) 0 0 0).wellFormed = false := by decide
theorem test_wf_red : (AsmStmt.setPixel 0 256 0 0).wellFormed = false := by decide
theorem test_wf_green : (AsmStmt.setPixel 0 0 256 0).wellFormed = false := by decide
theorem test_wf_blue : (AsmStmt.setPixel 0 0 0 256).wellFormed = false := by decide
theorem test_wf_getPixel_index : (AsmStmt.getPixel (2 ^ 32)).wellFormed = false := by decide
theorem test_wf_lookup_variant : (AsmStmt.lookupProfile 16).wellFormed = false := by decide
theorem test_wf_word64 : (AsmStmt.word64 (2 ^ 64)).wellFormed = false := by decide
theorem test_wf_largest :
    (AsmStmt.construct 15 0xFFFFFFFF 255).wellFormed = true ∧
      (Instr.construct 15 255 0xFFFFFFFF).wellFormed = true := by decide

/-! ### Assembly lines of programs P1 to P3 -/

theorem test_assemble_construct :
    assembleLine "CONSTRUCT A, 1, 5            ; comment".toList = .ok (some 0x1105000000000001) := by
  decide

theorem test_assemble_setPixel :
    assembleLine "SET_PIXEL 1, 0x12, 0x34, 0x56".toList = .ok (some 0x2012345600000001) := by decide

theorem test_assemble_errors :
    assembleLine "SET_PIXEL 0, 256, 0, 0".toList = .error .outOfRange ∧
      assembleLine "UPDATE 1".toList = .error .operandCount ∧
      assembleLine "  ; nothing".toList = .ok none ∧
      assembleLine ".word64 0".toList = .ok (some 0) := by decide

/-! ### Configuration (V-CFG) -/

/-- V-CFG-1. -/
theorem test_construct_A :
    answer (step (withWord 0x1105000000000001 uninit)) = some ⟨0x100, []⟩ ∧
      (after (step (withWord 0x1105000000000001 uninit))).map State.configWords =
        some [1, 5, 1, 350, 800, 700, 600, 50000, 3] := by decide

/-- V-CFG-4 (9 above `MAX_LEDS = 8`), V-CFG-6 (variant before capacity), V-CFG-15 (second CONSTRUCT). -/
theorem test_construct_errors :
    answer (step (withWord 0x1403000000000009 uninit)) = some ⟨0x2, []⟩ ∧
      answer (step (withWord 0x10000000FFFFFFFF uninit)) = some ⟨0x1, []⟩ ∧
      answer (step (withWord 0x1200000000000002 (readyA 1 []))) = some ⟨0x105, []⟩ := by decide

/-- V-CFG-10 and V-CFG-13. -/
theorem test_lookup_B_and_5 :
    answer (step (withWord 0x5200000000000000 uninit)) =
        some ⟨0x0, [0x12C, 0x442, 0x442, 0x140, 0x445C0, 0x3]⟩ ∧
      answer (step (withWord 0x5500000000000000 uninit)) = some ⟨0x1, []⟩ := by decide

/-- V-CFG-14 and the last line of program P1. -/
theorem test_getConfig :
    answer (step (withWord 0x6000000000000000 uninit)) =
        some ⟨0x0, [0, 0, 0, 0, 0, 0, 0, 0, 0]⟩ ∧
      answer (step (withWord 0x6000000000000000 (readyA 1 []))) =
        some ⟨0x100, [1, 5, 1, 350, 800, 700, 600, 50000, 3]⟩ := by decide

/-! ### Pixel Buffer (V-PIX) -/

/-- V-PIX-2 and V-PIX-6: the entry is `{R, G, B}`, and writing (0, 0, 0) leaves nothing listed. -/
theorem test_setPixel_writes :
    (after (step (withWord 0x20FF008000000001 (readyA 2 [])))).map State.pix =
        some [(1, 0xFF0080)] ∧
      (after (step (withWord 0x2000000000000001 (readyA 2 [(1, 0xFF0080)])))).map State.pix =
        some [] := by decide

/-- V-PIX-4 (index = LED_COUNT) and V-PIX-7 (UNINIT). -/
theorem test_setPixel_errors :
    answer (step (withWord 0x2001010100000002 (readyA 2 []))) = some ⟨0x103, []⟩ ∧
      answer (step (withWord 0x2001020300000000 uninit)) = some ⟨0x5, []⟩ := by decide

/-- V-PIX-3. -/
theorem test_getPixel_entry :
    answer (step (withWord 0x3000000000000001 (readyA 2 [(1, 0xFF0080)]))) =
      some ⟨0x100, [0x00FF0080]⟩ := by decide

/-- V-PIX-5: no wrap. -/
theorem test_getPixel_largest_index :
    answer (step (withWord 0x30000000FFFFFFFF (readyA 2 []))) = some ⟨0x103, []⟩ := by decide

/-! ### Frame Encoder (W5, W6, V-ENC) -/

/-- W5. -/
theorem test_serialize_order : serialize [packPixel 10 20 30] = [20, 10, 30] := by decide

/-- W6, V-ENC-B6 with variant A. -/
theorem test_bytePulses_B0 :
    bytePulses (readyA 1 []) 0xB0 =
      [⟨700, 600⟩, ⟨350, 800⟩, ⟨700, 600⟩, ⟨700, 600⟩, ⟨350, 800⟩, ⟨350, 800⟩, ⟨350, 800⟩,
        ⟨350, 800⟩] := by decide

/-- V-ENC-1: the 24 descriptors of (10, 20, 30), the request's line and `wait`, and its frame time
78000 ns (R240). -/
theorem test_update_V_ENC_1 :
    (after (step (withWord 0x4000000000000000 (readyA 1 [(0, 0x0A141E)])))).map State.txReqs =
        some [⟨5, true,
          "000101000000101000011110".toList.dropLast.map (fun c =>
              if c = '1' then 0x000002BC00000258 else 0x0000015E00000320) ++
            [0x0000015E0000C350]⟩] ∧
      frameTime (encodeFrame (readyA 1 [(0, 0x0A141E)])) = 78000 := by decide

/-- V-ENC-6 and V-ENC-8: an empty frame and UNINIT send nothing. -/
theorem test_update_sends_nothing :
    answer (step (withWord 0x4000000000000000 (readyA 0 []))) = some ⟨0x100, []⟩ ∧
      (after (step (withWord 0x4000000000000000 (readyA 0 [])))).map State.txReqs = some [] ∧
      answer (step (withWord 0x4000000000000000 uninit)) = some ⟨0x5, []⟩ := by decide

/-- V-ENC-9 and P1: the adapter's answer ends the UPDATE; a late one (R232) does not; one to no request
is outside the contract (R171). -/
theorem test_adapter_answers :
    answer (step (adapterAnswer ⟨1, false⟩ busyA)) = some ⟨0x104, []⟩ ∧
      answer (step (adapterAnswer ⟨1, true⟩ busyA)) = some ⟨0x100, []⟩ ∧
      (after (step (adapterAnswer ⟨0, true⟩ busyA))).map (fun t => (t.state, t.responses.length)) =
        some (.busy, 0) ∧
      after (step (adapterAnswer ⟨7, true⟩ busyA)) = none := by decide

/-! ### Reset and reserved words -/

/-- R230 and R232: reset during an UPDATE. -/
theorem test_reset_in_busy :
    (after (step (assertReset .betweenCommands busyA))).map
        (fun t => (t.configWords, t.pending, t.responses, t.abandoned)) =
      some ([0, 0, 0, 0, 0, 0, 0, 0, 0], none, [], [0, 1]) := by decide

/-- R241: the result of the run a reset begins lists nothing of the run before it. -/
theorem test_run_starts_at_reset :
    (after (step (assertReset .betweenCommands (respond .ok [] busyA)))).map
        (fun t => ((observe t).responses, (observe (respond .ok [7] t)).responses,
          (observe t).txReqs.length, t.responses.length, t.txReqs.length)) =
      some ([], [⟨0, [7]⟩], 0, 1, 2) := by decide

/-- Log 21: an answer that was on the port before its request ends the UPDATE of that request. -/
theorem test_early_answer :
    ((after (step (adapterAnswer ⟨0, true⟩ (withWord 0x4000000000000000 (readyA 1 []))))).bind
        fun t => (after (step t)).map fun u => (t.state, u.state, u.responses)) =
      some (.busy, .ready, [⟨0x100, []⟩]) := by decide

/-- R204: the word the reset meets is abandoned; one not yet taken is not (log 6). -/
theorem test_reset_and_the_port :
    (after (step (assertReset .duringCommand (withWord 0 uninit)))).map State.cmdPort = some [] ∧
      (after (step (assertReset .betweenCommands (withWord 0 uninit)))).map State.cmdPort =
        some [0] := by decide

/-- P3: `.word64 0` in READY. -/
theorem test_reserved_word : answer (step (withWord 0 (readyA 0 []))) = some ⟨0x106, []⟩ := by
  decide

/-- I14: a status word with a reserved bit, an unused result code or BUSY is refused by its reader. -/
theorem test_readStatus :
    readStatus 0x103 = some (.indexOutOfRange, .ready) ∧ readStatus 0x110 = none ∧
      readStatus 0x107 = none ∧ readStatus 0x200 = none ∧ readStatus 0x300 = none := by decide

/-! ### Witnesses: the hypotheses of each obligation are met together -/

theorem inv_uninit : Inv uninit := by
  constructor <;> decide

theorem inv_readyA : Inv (readyA 2 [(1, 0xFF0080)]) := by
  constructor <;> decide

theorem inv_busyA : Inv busyA := by
  constructor <;> decide

theorem adapterHonest_busyA : AdapterHonest { busyA with txPort := [⟨0, true⟩, ⟨1, false⟩] } := by
  constructor <;> decide

theorem witness_EncodeOfDecodeIsTheWord :
    ∃ w i, decode w = .ok i := ⟨0x1105000000000001, .construct 1 5 1, by decide⟩

theorem witness_FormatsAreTheMasksAndMatches :
    (∃ w : CommandWord, w &&& 0xF000FFFF00000000 = 0x1000000000000000) ∧
      (∃ w : CommandWord, w &&& 0xFF00000000000000 = 0x2000000000000000) ∧
      (∃ w : CommandWord, w &&& 0xFFFFFFFF00000000 = 0x3000000000000000) ∧
      ∃ w : CommandWord, w &&& 0xF0FFFFFFFFFFFFFF = 0x5000000000000000 :=
  ⟨⟨0x1FFF0000FFFFFFFF, by decide⟩, ⟨0x20FFFFFFFFFFFFFF, by decide⟩,
    ⟨0x30000000FFFFFFFF, by decide⟩, ⟨0x5F00000000000000, by decide⟩⟩

theorem witness_StatusWordHasTheFormat :
    ∃ w r st, readStatus w = some (r, st) := ⟨0x106, .reservedCommand, .ready, by decide⟩

theorem witness_AssemblyIsTheWordOrAnError :
    (AsmStmt.construct 16 0 0).wellFormed = false ∧ 15 < 2 ^ 4 ∧ 0xFFFFFFFF < 2 ^ 32 ∧ 255 < 2 ^ 8 ∧
      0xFFFFFFFFFFFFFFFF < 2 ^ 64 := by decide

/-- For `ResetWinsAndAnswersNothing` and `ResetKeepsTheWaitingWords`. -/
theorem witness_ResetWinsAndAnswersNothing :
    ∃ s t u : State, s.resetIn ≠ .released ∧ s.state = .busy ∧
      t.resetIn = .betweenCommands ∧ t.state ≠ .busy ∧ u.resetIn = .duringCommand ∧ u.state ≠ .busy :=
  ⟨assertReset .duringCommand busyA, assertReset .betweenCommands uninit,
    assertReset .duringCommand (withWord 0 uninit), by decide⟩

theorem witness_LateAnswerIsIgnored :
    ∃ (s : State) (n : Nat) (ok : Bool) (rest : List TxResp), s.resetIn = .released ∧
      s.state = .busy ∧ s.txPort = ⟨n, ok⟩ :: rest ∧ n ∈ s.abandoned ∧
      ∀ p ∈ s.pending, p.request ≠ n :=
  ⟨adapterAnswer ⟨0, true⟩ busyA, 0, true, [], by decide⟩

theorem witness_StepPerformsTheDecodedCommand :
    ∃ (s : State) (i : Instr) (rest : List CommandWord), s.resetIn = .released ∧ s.state ≠ .busy ∧
      s.cmdPort = encode i :: rest :=
  ⟨withWord 0x4000000000000000 uninit, .update, [], by decide⟩

/-- In READY and, waiting, in BUSY. -/
theorem witness_ReservedWordIsAnsweredAndWritesNothing :
    ∃ (s t : State) (w : CommandWord) (e : Reserved), s.resetIn = .released ∧ s.state ≠ .busy ∧
      s.cmdPort = w :: [] ∧ decode w = .error e ∧ t.resetIn = .released ∧ t.state = .busy ∧
      t.cmdPort = w :: [] :=
  ⟨withWord 0x1105000100000001 uninit, withWord 0x1105000100000001 busyA, 0x1105000100000001, .field,
    by decide⟩

theorem witness_BusyTakesNoCommand :
    ∃ s t : State, s.resetIn = .released ∧ s.state = .busy ∧ step s = .next t :=
  ⟨withWord 0 busyA, withWord 0 busyA, by decide, by decide, rfl⟩

theorem witness_NoAnswerKeepsTheBlockBusy :
    ∃ s : State, s.resetIn = .released ∧ s.state = .busy ∧ s.txPort = [] := ⟨busyA, by decide⟩

theorem witness_IdleBlockKeepsItsState :
    ∃ s : State, s.resetIn = .released ∧ runEnded s = true := ⟨readyA 1 [], by decide⟩

theorem witness_ResultOfARunStartsAtItsReset :
    ∃ (k : Nat) (s s₀ t : State), s.resetIn ≠ .released ∧ step s = .next s₀ ∧
      Sys2Proof.core.run k s₀ = .next t ∧ s.responses ≠ [] ∧ t.responses ≠ s.responses :=
  ⟨1, assertReset .betweenCommands (respond .ok [] (withWord 0 busyA)), _, _, by decide, rfl, rfl,
    by decide, by decide⟩

theorem witness_OneResponsePerCommandTaken :
    (∃ (s t : State) (w : CommandWord) (rest : List CommandWord), s.resetIn = .released ∧
      s.state ≠ .busy ∧ s.cmdPort = w :: rest ∧ step s = .next t) ∧
    ∃ s t : State, s.resetIn = .released ∧ s.state = .busy ∧ step s = .next t :=
  ⟨⟨withWord 0 uninit, _, 0, [], by decide, by decide, rfl, rfl⟩,
    ⟨adapterAnswer ⟨1, true⟩ busyA, _, by decide, by decide, rfl⟩⟩

/-- Each clause at its boundary: `count = MAX_LEDS` and one above, the Null code, 5 and 15. -/
theorem witness_ConstructCreatesTheController :
    uninit.state = .uninit ∧ 1#4 ∈ [1#4, 2#4, 3#4, 4#4] ∧ 4#4 ∈ [1#4, 2#4, 3#4, 4#4] ∧
      8 ≤ uninit.maxLeds ∧ uninit.maxLeds < 9 ∧ (readyA 1 []).state = .ready ∧
      0#4 ∉ [1#4, 2#4, 3#4, 4#4] ∧ 5#4 ∉ [1#4, 2#4, 3#4, 4#4] ∧ 15#4 ∉ [1#4, 2#4, 3#4, 4#4] := by
  decide

theorem witness_LookupProfileReadsTheTable :
    uninit.state ≠ .busy ∧ (readyA 1 []).state ≠ .busy ∧ 5 ≤ (5#4).toNat ∧ ¬ 5 ≤ (4#4).toNat := by
  decide

theorem witness_TimingTableIsAsPrinted :
    5 ≤ (5#4).toNat ∧ ¬ 5 ≤ (4#4).toNat ∧ timingRow 4 = some ⟨400, 850, 850, 400, 50000, 3⟩ := by
  decide

theorem witness_GetConfigReadsBackEveryRegister :
    (readyA 1 []).state ≠ .busy ∧ Inv uninit ∧ uninit.state = .uninit :=
  ⟨by decide, inv_uninit, rfl⟩

/-- The last index below `LED_COUNT`, and `LED_COUNT` itself, with LEDs and with none. -/
theorem witness_SetPixelWritesOnePixel :
    (readyA 2 [(1, 0xFF0080)]).state = .ready ∧ (readyA 2 [(1, 0xFF0080)]).pix.wf ∧
      1 < (readyA 2 [(1, 0xFF0080)]).ledCount ∧ (readyA 2 []).ledCount ≤ 2 ∧
      (readyA 0 []).ledCount ≤ 0 ∧ uninit.state = .uninit := by decide

/-- The last index below `LED_COUNT`, and `LED_COUNT` itself. -/
theorem witness_GetPixelAnswersTheEntry :
    (readyA 2 []).state = .ready ∧ 1 < (readyA 2 []).ledCount ∧ (readyA 2 []).ledCount ≤ 2 ∧
      uninit.state = .uninit := by decide

theorem witness_GetPixelReturnsTheLastSetPixel :
    ∃ (s : State) (i j : Count), s.state = .ready ∧ s.pix.wf ∧ i < s.ledCount ∧ j < s.ledCount ∧
      i ≠ j := ⟨readyA 2 [(1, 0xFF0080)], 0, 1, by decide⟩

theorem witness_IndexNamesAPixelExactlyBelowTheCount :
    namesPixel 1 (readyA 2 []) = true ∧ namesPixel 2 (readyA 2 []) = false ∧
      namesPixel 0 busyA = true ∧ namesPixel 0 uninit = false := by decide

theorem witness_PixelsAreZeroAfterConstruct :
    ∃ (s : State) (v : VariantCode) (c i : Count), s.state = .uninit ∧ supported v = true ∧
      c ≤ s.maxLeds ∧ i < c := ⟨uninit, 1, 8, 7, by decide⟩

theorem witness_SerializeIsGreenRedBlue :
    ∃ (px : List Pixel) (k : Nat), k < px.length := ⟨[0x0A141E], 0, by decide⟩

theorem witness_ExpandIsMostSignificantBitFirst :
    ∃ (bs : List Byte) (j k : Nat), j < bs.length ∧ k < 8 := ⟨[0xB0], 0, 7, by decide⟩

/-- For `LastPulseCarriesTheResetGap`, `FrameTimeIsTheSumOfItsBits` and `FrameEndsLowForTheResetGap`. -/
theorem witness_LastPulseCarriesTheResetGap :
    (∃ (s : State) (k : Nat), s.ledCount ≠ 0 ∧ k < 24 * s.ledCount.toNat - 1) ∧
      (∃ v p, supportedRow v = some p) ∧
      ∃ (l : List Pulse) (k : Nat) (p : Pulse), l[k]? = some p :=
  ⟨⟨readyA 1 [], 22, by decide⟩, ⟨1, _, rfl⟩, ⟨[⟨350, 800⟩], 0, ⟨350, 800⟩, rfl⟩⟩

/-- Two states that differ in a pixel that is not visible and in a port. -/
theorem witness_FrameDependsOnProfileAndVisiblePixels :
    ∃ s t : State, s ≠ t ∧ s.profile = t.profile ∧ s.ledCount = t.ledCount ∧
      ∀ i < s.ledCount.toNat, pixRead s i = pixRead t i :=
  ⟨readyA 1 [], withWord 0 (readyA 1 [(1, 0xFF0080)]), by decide⟩

/-- For `UpdateIssuesOneRequest` and `UpdateTransmitsOnceAndAnswers`: each of its three clauses. -/
theorem witness_UpdateTransmitsOnceAndAnswers :
    (∃ s : State, s.state = .ready ∧ s.ledCount ≠ 0 ∧ s.resetIn = .released ∧ s.txPort = [] ∧
      s.pending = none) ∧ (readyA 0 []).state = .ready ∧ (readyA 0 []).ledCount = 0 ∧
      uninit.state = .uninit := ⟨⟨readyA 1 [], by decide⟩, by decide⟩

/-- Two UPDATEs wait on the port. -/
theorem witness_RunWithoutSetPixelSendsOneFrame :
    ∃ s t : State, s.resetIn = .released ∧ s.state ≠ .uninit ∧
      (∀ w ∈ s.cmdPort, ∀ i r g b, decode w ≠ .ok (.setPixel i r g b)) ∧
      Sys2Proof.core.run 1 s = .next t := by
  refine ⟨{ readyA 1 [] with cmdPort := [encode .update, encode .update] }, _, by decide, by decide,
    ?_, rfl⟩
  intro w hw i r g b
  have hw : w = encode .update := by simpa using hw
  rw [hw, show decode (encode .update) = .ok .update by decide]
  simp

theorem witness_NullProfileNeverReachesTheEncoder :
    ∃ s t : State, Inv s ∧ step s = .next t ∧ t.txReqs ≠ s.txReqs :=
  ⟨withWord 0x4000000000000000 (readyA 1 []), _, by constructor <;> decide, rfl, by decide⟩

theorem witness_ReadingCommandsHaveNoSideEffect :
    ∃ (s t : State) (n : Count), exec (.getPixel n) s = .next t := ⟨readyA 1 [], _, 0, rfl⟩

/-- For `WritingCommandsLeaveTheRestAlone`: each of its three commands, where it writes. -/
theorem witness_WritingCommandsLeaveTheRestAlone :
    (∃ t, exec (.setPixel 0 1 2 3) (readyA 1 []) = .next t) ∧
      (∃ t, exec (.construct 1 5 8) uninit = .next t) ∧ ∃ t, exec .update (readyA 1 []) = .next t :=
  ⟨⟨_, rfl⟩, ⟨_, rfl⟩, ⟨_, rfl⟩⟩

theorem witness_ErrorsWriteNothing :
    (∃ (s t : State) (r : Response), s.resetIn = .released ∧ s.state ≠ .busy ∧ step s = .next t ∧
      t.responses = s.responses ++ [r] ∧ r.status.extractLsb' 0 4 ≠ ResultCode.ok.code) ∧
    ∃ (s t u : State) (a : TxResp), s.state = .ready ∧ s.ledCount ≠ 0 ∧ s.resetIn = .released ∧
      s.txPort = [] ∧ a.ok = false ∧ exec .update s = .next t ∧
      step (adapterAnswer a t) = .next u ∧ u.state ≠ .busy :=
  ⟨⟨withWord 0 uninit, _, _, by decide, by decide, rfl, rfl, by decide⟩,
    ⟨readyA 1 [], _, _, ⟨0, false⟩, by decide, by decide, by decide, by decide, rfl, rfl, rfl,
      by decide⟩⟩

/-- For `ConfigurationIsImmutable` and `LifecycleHasOnlyItsEdges`: a CONSTRUCT that succeeds. -/
theorem witness_ConfigurationIsImmutable :
    ∃ s t : State, s.resetIn = .released ∧ step s = .next t ∧ t.state ≠ s.state ∧
      (t.variant, t.line, t.ledCount, t.profile) ≠ (s.variant, s.line, s.ledCount, s.profile) :=
  ⟨withWord 0x1105000000000001 uninit, _, by decide, rfl, by decide, by decide⟩

/-- For `OnlyAnAdapterBreachStops`: the stop is reached. -/
theorem witness_OnlyAnAdapterBreachStops :
    step (adapterAnswer ⟨7, true⟩ busyA) = .fault .adapterContract := by rfl

theorem witness_EveryStepKeepsTheInvariant : ∃ s t : State, Inv s ∧ step s = .next t :=
  ⟨busyA, busyA, inv_busyA, rfl⟩

theorem witness_InputsKeepTheInvariant : ∃ s : State, Inv s ∧ s.state = .ready :=
  ⟨readyA 2 [(1, 0xFF0080)], inv_readyA, rfl⟩

theorem witness_HonestAdapterNeverStopsTheBlock :
    ∃ s : State, Inv s ∧ AdapterHonest s ∧ s.state = .busy :=
  ⟨{ busyA with txPort := [⟨0, true⟩, ⟨1, false⟩] }, by constructor <;> decide, adapterHonest_busyA,
    rfl⟩

theorem witness_UpdateEndsAfterTheLateAnswers :
    ∃ (s : State) (late : List TxResp) (n : Nat) (ok : Bool), s.resetIn = .released ∧
      s.state = .busy ∧ s.pending = some ⟨.update, n⟩ ∧ s.txPort = late ++ [⟨n, ok⟩] ∧
      (late.map (·.request)).Nodup ∧ (∀ r ∈ late, r.request ∈ s.abandoned ∧ r.request ≠ n) ∧
      late ≠ [] :=
  ⟨{ busyA with txPort := [⟨0, true⟩, ⟨1, false⟩] }, [⟨0, true⟩], 1, false, by decide⟩

end Sys2Proof.Tests
end

section
/-! PROOFS of the statements on the state of the block (`10_state.md`): which steps write the
configuration (R27), and the shape file (R29). -/

namespace Sys2Proof

/-! ### The word of a decoded CONSTRUCT -/

/-- A word whose opcode is CONSTRUCT's and whose reserved field is 0 is the word of its operand
fields (R82). -/
theorem encode_construct_bits {w : CommandWord} (hop : opcodeOf w = 0x1)
    (hz : bits w 32 16 = 0) :
    encode (.construct (bits w 56 4) (bits w 48 8) (bits w 0 32)) = w := by
  have hop : w.toNat / 2 ^ 60 % 2 ^ 4 = 1 := by rw [← bits_toNat, ← opcodeOf, hop]; rfl
  have hz : w.toNat / 2 ^ 32 % 2 ^ 16 = 0 := by rw [← bits_toNat, hz]; rfl
  apply BitVec.eq_of_toNat_eq
  rw [encode_construct_toNat]
  simp only [bits_toNat]
  omega

/-- The only words that decode to a CONSTRUCT are CONSTRUCT's words (R82, R89). -/
theorem encode_of_decode_construct {w : CommandWord} {v : VariantCode} {l : LineId} {c : Count}
    (h : decode w = .ok (.construct v l c)) : encode (.construct v l c) = w := by
  by_cases hw : opcodeOf w = 0x1 ∧ bits w 32 16 = 0
  · simp only [decode, if_pos hw, Except.ok.injEq, Instr.construct.injEq] at h
    obtain ⟨rfl, rfl, rfl⟩ := h
    exact encode_construct_bits hw.1 hw.2
  · simp only [decode, if_neg hw] at h
    split_ifs at h <;> simp at h

end Sys2Proof

namespace Sys2Proof.Machine

/-! ### The configuration (R27) -/

/-- What R27 calls the configuration: `VARIANT`, `LINE`, `LED_COUNT` and the profile registers. -/
def State.config (s : State) : VariantCode × LineId × Count × Profile :=
  (s.variant, s.line, s.ledCount, s.profile)

/-- The wait for the adapter writes no register of the configuration. -/
theorem awaitTx_config {s t : State} (h : awaitTx s = .next t) : t.config = s.config := by
  rcases awaitTx_cases h with ⟨_, rfl⟩ | ⟨_, _, _, ⟨_, rfl⟩ | ⟨_, _, rfl⟩⟩ <;> rfl

/-- A command keeps the configuration or is a CONSTRUCT that succeeds, whose operands it then holds
(R113). -/
theorem exec_config_cases {i : Instr} {s t : State} (h : exec i s = .next t) :
    t.config = s.config ∨ s.state = .uninit ∧ t.state = .ready ∧
      i = .construct t.variant t.line t.ledCount := by
  cases i with
  | construct v l c =>
    rcases execConstruct_cases h with ⟨_, rfl⟩ | ⟨_, _, rfl⟩ | ⟨_, _, _, rfl⟩ | ⟨p, hs, _, _, rfl⟩
    · exact .inl rfl
    · exact .inl rfl
    · exact .inl rfl
    · exact .inr ⟨hs, rfl, rfl⟩
  | setPixel i r g b =>
    rcases execSetPixel_cases h with ⟨_, rfl⟩ | ⟨_, _, rfl⟩ | ⟨_, _, rfl⟩ <;> exact .inl rfl
  | getPixel i =>
    rcases execGetPixel_cases h with ⟨_, rfl⟩ | ⟨_, _, rfl⟩ | ⟨_, _, rfl⟩ <;> exact .inl rfl
  | update =>
    rcases execUpdate_cases h with ⟨_, rfl⟩ | ⟨_, _, rfl⟩ | ⟨_, _, rfl⟩ <;> exact .inl rfl
  | lookupProfile v =>
    rcases execLookupProfile_cases h with ⟨_, rfl⟩ | ⟨_, _, rfl⟩ <;> exact .inl rfl
  | getConfig => cases h; exact .inl rfl

/-- Taking a word keeps the configuration, unless the word is that of a CONSTRUCT that succeeds. -/
theorem takeCommand_config_cases {s t : State} (h : takeCommand s = .next t) :
    t.config = s.config ∨ s.state = .uninit ∧ t.state = .ready ∧
      ∃ rest, s.cmdPort = encode (.construct t.variant t.line t.ledCount) :: rest := by
  rcases takeCommand_cases h with ⟨_, rfl⟩ | ⟨w, rest, hport, ⟨i, hdec, hexec⟩ | ⟨_, _, rfl⟩⟩
  · exact .inl rfl
  · rcases exec_config_cases hexec with hkeep | ⟨hs, ht, rfl⟩
    · exact .inl hkeep
    · exact .inr ⟨hs, ht, rest, by rw [encode_of_decode_construct hdec, hport]⟩
  · exact .inl rfl

/-- Settles O44: a step without reset waits for the adapter, which writes no configuration, or
takes a word, which writes it only as a CONSTRUCT that succeeds. -/
theorem configurationIsImmutable : Obligations.ConfigurationIsImmutable := by
  intro s t hreset hstep hchanged
  rcases step_cases hstep with ⟨hasserted, _⟩ | ⟨_, _, hwait⟩ | ⟨_, _, htake⟩
  · exact absurd hreset hasserted
  · exact absurd (awaitTx_config hwait) hchanged
  · rcases takeCommand_config_cases htake with hkeep | ⟨hs, ht, rest, hport⟩
    · exact absurd hkeep hchanged
    · exact ⟨hs, ht, _, _, _, rest, hport, rfl, rfl, rfl⟩

/-! ### The shape file (R29) -/

/-- The index of the shape file is `{is_last, bit}`: bit 0 is the data bit, bit 1 the last-pulse bit. -/
theorem shapeIndex_getLsbD (isLast bit : Bool) :
    (shapeIndex isLast bit).getLsbD 0 = bit ∧ (shapeIndex isLast bit).getLsbD 1 = isLast := by
  revert isLast bit; decide

/-- With a profile of zeros every shape is (0, 0). -/
theorem shape_of_nullProfile {s : State} (h : s.profile = nullProfile) (k : BitVec 2) :
    shape s k = ⟨0, 0⟩ := by
  simp only [State.profile, nullProfile, Profile.mk.injEq] at h
  obtain ⟨h0h, h0l, h1h, h1l, hgap, _⟩ := h
  simp only [shape, h0h, h0l, h1h, h1l, hgap, ite_self]

/-- Settles O27: the four shapes by evaluation, the index by its two bits, and after reset the
profile registers hold zeros. -/
theorem shapeFileHoldsTheFourShapes : Obligations.ShapeFileHoldsTheFourShapes :=
  ⟨fun _ => ⟨rfl, rfl, rfl, rfl⟩, shapeIndex_getLsbD, shape_of_nullProfile rfl⟩

end Sys2Proof.Machine
end

section
/-! PROOFS of the statements on the memory of the block (`20_memory.md`): which indices name a pixel
(R61). -/

namespace Sys2Proof.Machine

/-- The index test compares unsigned numbers (R61). -/
theorem indexInRange_iff {i : Count} {s : State} :
    indexInRange i s = true ↔ i.toNat < s.ledCount.toNat := by
  simp only [indexInRange, decide_eq_true_eq, BitVec.lt_def]

/-- An index names a pixel in READY or BUSY, below `LED_COUNT` (R61). -/
theorem namesPixel_iff {i : Count} {s : State} :
    namesPixel i s = true ↔
      (s.state = .ready ∨ s.state = .busy) ∧ i.toNat < s.ledCount.toNat := by
  simp only [namesPixel, Bool.and_eq_true, Bool.or_eq_true, decide_eq_true_eq, indexInRange_iff]

/-- In READY a GET_PIXEL below `LED_COUNT` answers the entry (R143). -/
theorem exec_getPixel_of_lt {i : Count} {s : State} (hs : s.state = .ready)
    (hi : i.toNat < s.ledCount.toNat) :
    exec (.getPixel i) s = .next (respond .ok [(pixRead s i.toNat).setWidth 32] s) := by
  simp only [exec, execGetPixel, hs, indexInRange_iff.2 hi, ne_eq, not_true_eq_false, if_false]

/-- A GET_PIXEL answers OK with a payload in READY below `LED_COUNT` and nowhere else: its two errors
carry no payload (R94, R143). -/
theorem getPixel_answers_ok_iff {i : Count} {s : State} :
    (∃ (t : State) (w : ResponseWord), exec (.getPixel i) s = .next t ∧
        t.responses = s.responses ++ [⟨statusWord .ok s.state, [w]⟩]) ↔
      s.state = .ready ∧ i.toNat < s.ledCount.toNat := by
  constructor
  · rintro ⟨t, w, hexec, hresp⟩
    rcases execGetPixel_cases hexec with ⟨_, rfl⟩ | ⟨_, _, rfl⟩ | ⟨hs, hi, _⟩
    · simp at hresp
    · simp at hresp
    · exact ⟨hs, BitVec.lt_def.1 hi⟩
  · rintro ⟨hs, hi⟩
    exact ⟨_, _, exec_getPixel_of_lt hs hi, rfl⟩

/-- Settles O25: outside BUSY the indices that name a pixel are those below `LED_COUNT` in READY, which
are those a GET_PIXEL answers OK. -/
theorem indexNamesAPixelExactlyBelowTheCount :
    Obligations.IndexNamesAPixelExactlyBelowTheCount := by
  intro s i
  refine ⟨namesPixel_iff, fun hbusy => ?_⟩
  rw [namesPixel_iff, getPixel_answers_ok_iff, or_iff_left hbusy]

end Sys2Proof.Machine
end

section
/-! PROOFS of the statements on the encoding (`30_encoding.md`): the six formats as masks, matches and
fields (R82 to R87), the reserved words (R90), and the pulse descriptor (R96). -/

namespace Sys2Proof

/-! ### Decoding, one opcode at a time (R89) -/

section
variable {w : CommandWord}

theorem decode_of_opcode_construct (hop : opcodeOf w = 0x1) :
    decode w = if bits w 32 16 = 0 then
      .ok (.construct (bits w 56 4) (bits w 48 8) (bits w 0 32)) else .error .field := by
  simp [decode, hop, legalOpcode]

theorem decode_of_opcode_setPixel (hop : opcodeOf w = 0x2) :
    decode w = if bits w 56 4 = 0 then
      .ok (.setPixel (bits w 0 32) (bits w 48 8) (bits w 40 8) (bits w 32 8))
      else .error .field := by
  simp [decode, hop, legalOpcode]

theorem decode_of_opcode_getPixel (hop : opcodeOf w = 0x3) :
    decode w = if bits w 32 28 = 0 then .ok (.getPixel (bits w 0 32)) else .error .field := by
  simp [decode, hop, legalOpcode]

theorem decode_of_opcode_update (hop : opcodeOf w = 0x4) :
    decode w = if bits w 0 60 = 0 then .ok .update else .error .field := by
  simp [decode, hop, legalOpcode]

theorem decode_of_opcode_lookupProfile (hop : opcodeOf w = 0x5) :
    decode w = if bits w 0 56 = 0 then .ok (.lookupProfile (bits w 56 4)) else .error .field := by
  simp [decode, hop, legalOpcode]

theorem decode_of_opcode_getConfig (hop : opcodeOf w = 0x6) :
    decode w = if bits w 0 60 = 0 then .ok .getConfig else .error .field := by
  simp [decode, hop, legalOpcode]

/-- An opcode is one of the six or illegal (R81). -/
theorem opcode_cases : ∀ op : BitVec 4,
    op = 0x1 ∨ op = 0x2 ∨ op = 0x3 ∨ op = 0x4 ∨ op = 0x5 ∨ op = 0x6 ∨
      legalOpcode op = false := by decide

/-- The illegal opcodes are 0x0 and 0x7 to 0xF (R81). -/
theorem legalOpcode_eq_false_iff : ∀ {op : BitVec 4},
    legalOpcode op = false ↔ op = 0 ∨ 7 ≤ op.toNat := by decide

theorem decode_of_illegal_opcode (hop : legalOpcode (opcodeOf w) = false) :
    decode w = .error .opcode := by
  have hne {op : BitVec 4} (hlegal : legalOpcode op = true) : opcodeOf w ≠ op := by
    rintro rfl
    simp [hlegal] at hop
  simp only [decode, hop, hne (op := 0x1) rfl, hne (op := 0x2) rfl, hne (op := 0x3) rfl,
    hne (op := 0x4) rfl, hne (op := 0x5) rfl, hne (op := 0x6) rfl, false_and, if_false,
    Bool.false_eq_true]

/-- A word that decodes to a command carries the command's opcode (R81). -/
theorem opcodeOf_of_decode {i : Instr} (h : decode w = .ok i) : opcodeOf w = opcodeValue i := by
  simp only [decode] at h
  split_ifs at h with h1 h2 h3 h4 h5 h6
  · cases h; exact h1.1
  · cases h; exact h2.1
  · cases h; exact h3.1
  · cases h; exact h4.1
  · cases h; exact h5.1
  · cases h; exact h6.1

end

/-! ### Masks and matches (R82 to R87) -/

/-- The mask of a format whose field of `width` bits from bit `lo` up must be 0: the opcode's bits and
that field's. -/
def formatMask (lo width : Nat) : CommandWord :=
  (0xF#4 ++ 0#60 : BitVec (4 + 60)) ||| (BitVec.allOnes width).setWidth 64 <<< lo

/-- The match of a format: its opcode in [63:60], 0 elsewhere. -/
def formatMatch (op : BitVec 4) : CommandWord := (op ++ 0#60 : BitVec (4 + 60))

theorem formatMask_getLsbD {lo width i : Nat} (hfit : lo + width ≤ 60) (hi : i < 64) :
    (formatMask lo width).getLsbD i = decide (60 ≤ i ∨ lo ≤ i ∧ i < lo + width) := by
  have hF : i - 60 < 4 → (0xF#4).getLsbD (i - 60) = true := by
    generalize i - 60 = k; revert k; decide
  simp only [formatMask, BitVec.getLsbD_or, BitVec.getLsbD_append, BitVec.getLsbD_shiftLeft,
    BitVec.getLsbD_setWidth, BitVec.getLsbD_allOnes, BitVec.getLsbD_zero]
  grind

theorem formatMatch_getLsbD {op : BitVec 4} {i : Nat} :
    (formatMatch op).getLsbD i = (decide (60 ≤ i) && op.getLsbD (i - 60)) := by
  simp only [formatMatch, BitVec.getLsbD_append, BitVec.getLsbD_zero]
  grind

/-- A field equals a value when its bits do. -/
theorem bits_eq_iff {w : CommandWord} {lo width : Nat} {v : BitVec width} :
    bits w lo width = v ↔ ∀ i < width, w.getLsbD (lo + i) = v.getLsbD i := by
  simp +contextual only [BitVec.eq_of_getLsbD_eq_iff, bits, BitVec.getLsbD_extractLsb',
    decide_true, Bool.true_and]

/-- A masked word is the match exactly when the opcode is the format's and the field that must be 0
is 0. -/
theorem and_formatMask_eq_formatMatch_iff {w : CommandWord} {op : BitVec 4} {lo width : Nat}
    (hfit : lo + width ≤ 60) :
    w &&& formatMask lo width = formatMatch op ↔ opcodeOf w = op ∧ bits w lo width = 0 := by
  have hbit : ∀ i < 64, ((w &&& formatMask lo width).getLsbD i = (formatMatch op).getLsbD i ↔
      (w.getLsbD i && decide (60 ≤ i ∨ lo ≤ i ∧ i < lo + width)) =
        (decide (60 ≤ i) && op.getLsbD (i - 60))) := fun i hi => by
    rw [BitVec.getLsbD_and, formatMask_getLsbD hfit hi, formatMatch_getLsbD]
  simp +contextual only [BitVec.eq_of_getLsbD_eq_iff (w := 64), hbit, opcodeOf, bits_eq_iff]
  constructor
  · intro h
    refine ⟨fun i hi => by simpa using h (60 + i) (by omega), fun i hi => ?_⟩
    have hbelow : ¬ 60 ≤ lo + i := by omega
    simpa [hbelow, hi] using h (lo + i) (by omega)
  · rintro ⟨hop, hz⟩ i hi
    by_cases h60 : 60 ≤ i
    · obtain ⟨k, rfl⟩ := Nat.exists_eq_add_of_le h60
      simpa using hop k (by omega)
    · by_cases hfield : lo ≤ i ∧ i < lo + width
      · obtain ⟨k, rfl⟩ := Nat.exists_eq_add_of_le hfield.1
        simpa [h60, hfield] using hz k (by omega)
      · simp [h60, hfield]

section
variable {w : CommandWord} {op : BitVec 4} {lo width : Nat} {i j : Instr}

/-- A word that matches under its format's mask decodes to the format's command. -/
theorem decode_of_masked (hfit : lo + width ≤ 60)
    (hformat : opcodeOf w = op →
      decode w = if bits w lo width = 0 then .ok i else .error .field)
    (h : w &&& formatMask lo width = formatMatch op) : decode w = .ok i := by
  obtain ⟨hop, hzero⟩ := (and_formatMask_eq_formatMatch_iff hfit).1 h
  rw [hformat hop, if_pos hzero]

/-- A word that decodes to a command of a format matches under the format's mask. -/
theorem masked_of_decode (hfit : lo + width ≤ 60)
    (hformat : opcodeOf w = op →
      decode w = if bits w lo width = 0 then .ok i else .error .field)
    (h : decode w = .ok j) (hj : opcodeValue j = op) :
    w &&& formatMask lo width = formatMatch op := by
  have hop : opcodeOf w = op := (opcodeOf_of_decode h).trans hj
  have hzero : bits w lo width = 0 := by
    by_contra hne
    rw [hformat hop, if_neg hne] at h
    cases h
  exact (and_formatMask_eq_formatMatch_iff hfit).2 ⟨hop, hzero⟩

end

/-- Settles O3: a masked word is a match exactly when opcode and reserved field are the format's, which
is when it decodes to the format's command. The masks and matches are the numerals by evaluation. -/
theorem formatsAreTheMasksAndMatches : Obligations.FormatsAreTheMasksAndMatches := by
  intro w
  refine ⟨⟨⟨fun h => ⟨_, _, _, ?construct h⟩, fun ⟨_, _, _, h⟩ => ?isConstruct⟩, ?construct⟩,
    ⟨⟨fun h => ⟨_, _, _, _, ?setPixel h⟩, fun ⟨_, _, _, _, h⟩ => ?isSetPixel⟩, ?setPixel⟩,
    ⟨⟨fun h => ⟨_, ?getPixel h⟩, fun ⟨_, h⟩ => ?isGetPixel⟩, ?getPixel⟩,
    ⟨?update, fun h => ?isUpdate⟩,
    ⟨⟨fun h => ⟨_, ?lookupProfile h⟩, fun ⟨_, h⟩ => ?isLookupProfile⟩, ?lookupProfile⟩,
    ⟨?getConfig, fun h => ?isGetConfig⟩⟩
  case construct => exact decode_of_masked (by decide) decode_of_opcode_construct
  case isConstruct => exact masked_of_decode (by decide) decode_of_opcode_construct h rfl
  case setPixel => exact decode_of_masked (by decide) decode_of_opcode_setPixel
  case isSetPixel => exact masked_of_decode (by decide) decode_of_opcode_setPixel h rfl
  case getPixel => exact decode_of_masked (by decide) decode_of_opcode_getPixel
  case isGetPixel => exact masked_of_decode (by decide) decode_of_opcode_getPixel h rfl
  case update => exact decode_of_masked (by decide) decode_of_opcode_update
  case isUpdate => exact masked_of_decode (by decide) decode_of_opcode_update h rfl
  case lookupProfile => exact decode_of_masked (by decide) decode_of_opcode_lookupProfile
  case isLookupProfile => exact masked_of_decode (by decide) decode_of_opcode_lookupProfile h rfl
  case getConfig => exact decode_of_masked (by decide) decode_of_opcode_getConfig
  case isGetConfig => exact masked_of_decode (by decide) decode_of_opcode_getConfig h rfl

/-! ### Reserved words (R90) -/

/-- For the lemmas `decode_of_opcode_…`: of their two outcomes the second is the reserved one. -/
theorem exists_error_ite_iff {p : Prop} [Decidable p] {i : Instr} {r : Reserved} :
    (∃ e, (if p then Except.ok i else Except.error r) = Except.error e) ↔ ¬ p := by
  split_ifs with h <;> simp [h]

end Sys2Proof

namespace Sys2Proof.Machine

theorem step_of_ne_busy {s : State} (hr : s.resetIn = .released) (hs : s.state ≠ .busy) :
    step s = takeCommand s := by
  simp only [step, hr, hs, ne_eq, not_true_eq_false, if_false]

/-- A reserved word is taken off the port and answered (R90). -/
theorem takeCommand_of_reserved {s : State} {w : CommandWord} {rest : List CommandWord}
    {e : Reserved} (hport : s.cmdPort = w :: rest) (hdec : decode w = .error e) :
    takeCommand s = .next (respond .reservedCommand [] { s with cmdPort := rest }) := by
  simp only [takeCommand, hport, hdec, raiseError_eq]

/-- The wait for the adapter takes no word (R234). -/
theorem awaitTx_cmdPort {s t : State} (h : awaitTx s = .next t) : t.cmdPort = s.cmdPort := by
  rcases awaitTx_cases h with ⟨_, rfl⟩ | ⟨_, _, _, ⟨_, rfl⟩ | ⟨_, _, rfl⟩⟩ <;> rfl

/-- Settles O13: which words are reserved, opcode by opcode; a reserved word is answered when it is taken,
and in BUSY no word is. -/
theorem reservedWordIsAnsweredAndWritesNothing :
    Obligations.ReservedWordIsAnsweredAndWritesNothing := by
  refine ⟨fun w => ?_, fun s w e rest hr hport hdec => ⟨fun hs => ?_, fun hs t ht => ?_⟩⟩
  · have field {width : Nat} (lo : Nat) : w.extractLsb' lo width = bits w lo width := rfl
    have opcode : bits w 60 4 = opcodeOf w := rfl
    simp only [field, opcode]
    rcases opcode_cases (opcodeOf w) with hop | hop | hop | hop | hop | hop | hop
    · simp [hop, decode_of_opcode_construct hop, exists_error_ite_iff]
    · simp [hop, decode_of_opcode_setPixel hop, exists_error_ite_iff]
    · simp [hop, decode_of_opcode_getPixel hop, exists_error_ite_iff]
    · simp [hop, decode_of_opcode_update hop, exists_error_ite_iff]
    · simp [hop, decode_of_opcode_lookupProfile hop, exists_error_ite_iff]
    · simp [hop, decode_of_opcode_getConfig hop, exists_error_ite_iff]
    · simp only [← or_assoc, ← legalOpcode_eq_false_iff, hop, true_or, iff_true]
      exact ⟨_, decode_of_illegal_opcode hop⟩
  · rw [step_of_ne_busy hr hs, takeCommand_of_reserved hport hdec]
    rfl
  · rcases step_cases ht with ⟨hasserted, _⟩ | ⟨_, _, hwait⟩ | ⟨_, hne, _⟩
    · exact absurd hr hasserted
    · rw [awaitTx_cmdPort hwait, hport]
    · exact absurd hs hne

/-! ### The pulse descriptor (R96) -/

/-- Settles O6: a concatenation gives back its two halves, and the levels are so by evaluation. -/
theorem descriptorHoldsHighThenLow : Obligations.DescriptorHoldsHighThenLow :=
  fun _ => ⟨BitVec.extractLsb'_append_eq_left, BitVec.extractLsb'_append_eq_right, rfl⟩

end Sys2Proof.Machine
end

section
/-! PROOFS of the statements on the configuration commands (`40_configuration.md`): the Timing Profile
Table (R110 to R112), LOOKUP_PROFILE (R115), GET_CONFIG (R116) and CONSTRUCT (R113). -/

namespace Sys2Proof.Machine

/-! ### The Timing Profile Table (R110 to R112) -/

/-- The supported variants are A, B, C and GENERIC (R112). -/
theorem supported_iff_mem : ∀ {v : VariantCode},
    supported v = true ↔ v ∈ [1#4, 2#4, 3#4, 4#4] := by decide

/-- Codes 5 to 15 have no row: there is no fallback (R112). -/
theorem timingRow_of_five_le : ∀ {v : VariantCode}, 5 ≤ v.toNat → timingRow v = none := by decide

/-- The one row that is not of a supported variant is the Null row (R110). -/
theorem timingRow_of_not_supported : ∀ {v : VariantCode}, supported v = false →
    ∀ p ∈ timingRow v, p = nullProfile := by decide

/-- A supported variant has a row to latch (R112). -/
theorem exists_supportedRow {v : VariantCode} (h : supported v = true) :
    ∃ p, supportedRow v = some p := by
  apply Option.ne_none_iff_exists'.1
  simp [supportedRow_eq_none, h]

/-- The byte count of a row: 3 for a supported variant, 0 for Null (R111). -/
theorem timingRow_bytesPerLed {v : VariantCode} {p : Profile} (hrow : timingRow v = some p) :
    p.bytesPerLed = if supported v then 3 else 0 := by
  cases hsup : supported v with
  | true => exact supportedRow_bytes (supportedRow_eq_some.2 ⟨hsup, hrow⟩)
  | false => rw [timingRow_of_not_supported hsup p hrow]; rfl

/-- Settles O20: the five printed rows by evaluation, the rest by the lemmas on the table. -/
theorem timingTableIsAsPrinted : Obligations.TimingTableIsAsPrinted :=
  ⟨rfl, rfl, rfl, rfl, rfl, fun _ => timingRow_of_five_le, fun _ => supported_iff_mem,
    fun _ _ => timingRow_bytesPerLed⟩

/-! ### LOOKUP_PROFILE (R115) -/

theorem exec_lookupProfile_of_row {v : VariantCode} {p : Profile} (s : State)
    (hrow : timingRow v = some p) :
    exec (.lookupProfile v) s = .next (respond .ok p.words s) := by
  simp only [exec, execLookupProfile, hrow]

theorem exec_lookupProfile_of_no_row {v : VariantCode} (s : State) (hrow : timingRow v = none) :
    exec (.lookupProfile v) s = .next (respond .unsupportedVariant [] s) := by
  simp only [exec, execLookupProfile, hrow, raiseError_eq]

/-- Settles O19: codes 0 to 4 have the printed rows, and a code from 5 on has none. -/
theorem lookupProfileReadsTheTable : Obligations.LookupProfileReadsTheTable := by
  refine fun s _ => ⟨?rows, fun v hv => exec_lookupProfile_of_no_row s (timingRow_of_five_le hv)⟩
  case rows =>
    obtain ⟨hA, hB, hC, hGeneric, hNull, _⟩ := timingTableIsAsPrinted
    simp only [List.forall_mem_cons, List.not_mem_nil, false_implies, implies_true, and_true]
    exact ⟨exec_lookupProfile_of_row s hNull, exec_lookupProfile_of_row s hA,
      exec_lookupProfile_of_row s hB, exec_lookupProfile_of_row s hC,
      exec_lookupProfile_of_row s hGeneric⟩

/-! ### GET_CONFIG (R116) -/

theorem exec_getConfig (s : State) : exec .getConfig s = .next (respond .ok s.configWords s) := rfl

/-- In UNINIT the invariant has the nine registers at their reset values (R22 to R25). -/
theorem configWords_of_uninit {s : State} (hinv : Inv s) (hs : s.state = .uninit) :
    s.configWords = List.replicate 9 0 := by
  obtain ⟨hvariant, hline, hcount, hprofile⟩ := hinv.uninitNull hs
  simp only [State.profile, nullProfile, Profile.mk.injEq] at hprofile
  obtain ⟨h0h, h0l, h1h, h1l, hgap, hbpl⟩ := hprofile
  simp only [State.configWords, hvariant, hline, hcount, h0h, h0l, h1h, h1l, hgap, hbpl]
  rfl

/-- Settles O21: the payload is the nine registers in every state, and they are zeros in UNINIT. -/
theorem getConfigReadsBackEveryRegister : Obligations.GetConfigReadsBackEveryRegister := by
  refine ⟨fun s _ => exec_getConfig s, fun s hinv hs => ?_⟩
  rw [exec_getConfig, configWords_of_uninit hinv hs, respond, hs]

/-! ### CONSTRUCT (R113), one equation per outcome -/

section
variable {s : State} {v : VariantCode} (l : LineId) {c : Count}

theorem exec_construct_of_ne_uninit (v : VariantCode) (c : Count) (hs : s.state ≠ .uninit) :
    exec (.construct v l c) s = .next (respond .illegalState [] s) := by
  simp only [exec, execConstruct, if_pos hs, raiseError_eq]

theorem exec_construct_of_not_supported (c : Count) (hs : s.state = .uninit)
    (hv : supported v = false) :
    exec (.construct v l c) s = .next (respond .unsupportedVariant [] s) := by
  simp only [exec, execConstruct, hs, ne_eq, not_true_eq_false, if_false,
    supportedRow_eq_none.2 hv, raiseError_eq]

theorem exec_construct_of_capacity_lt {p : Profile} (hs : s.state = .uninit)
    (hrow : supportedRow v = some p) (hc : s.maxLeds < c) :
    exec (.construct v l c) s = .next (respond .allocationFailure [] s) := by
  have halloc : ¬ allocateOk c s = true := by simpa [allocateOk] using hc
  simp only [exec, execConstruct, hs, ne_eq, not_true_eq_false, if_false, hrow, if_pos halloc,
    raiseError_eq]

theorem exec_construct_of_le_capacity {p : Profile} (hs : s.state = .uninit)
    (hrow : supportedRow v = some p) (hc : c ≤ s.maxLeds) :
    exec (.construct v l c) s = .next (respond .ok []
      { allocate c (latchConfig v l c (latchProfile p s)) with state := .ready }) := by
  have halloc : ¬ ¬ allocateOk c s = true := by simpa [allocateOk] using hc
  simp only [exec, execConstruct, hs, ne_eq, not_true_eq_false, if_false, hrow, if_neg halloc]

end

/-- Settles O18: one equation per outcome; after a success every register and port of the next state is
that of the last operation that writes it. -/
theorem constructCreatesTheController : Obligations.ConstructCreatesTheController := by
  intro s v l c
  refine ⟨fun hs hv hc => ?success, fun hs => ?illegal, fun hs hv => ?unsupported,
    fun hs hv hc => ?overCapacity⟩
  case success =>
    obtain ⟨p, hrow⟩ := exists_supportedRow (supported_iff_mem.2 hv)
    refine ⟨_, exec_construct_of_le_capacity l hs hrow hc, (supportedRow_eq_some.1 hrow).2,
      rfl, rfl, rfl, rfl, rfl, fun i hi => ?zeroed, fun i hi => ?kept,
      rfl, rfl, rfl, rfl, rfl, rfl, rfl, rfl, rfl⟩
    case zeroed => exact (pixRead_allocate s c i).trans (if_pos hi)
    case kept => exact (pixRead_allocate s c i).trans (if_neg (Nat.not_lt.2 hi))
  case illegal => rw [exec_construct_of_ne_uninit l v c (by simp [hs]), respond, hs]
  case unsupported =>
    have hsup : supported v = false := by rwa [← Bool.not_eq_true, supported_iff_mem]
    rw [exec_construct_of_not_supported l c hs hsup, respond, hs]
  case overCapacity =>
    obtain ⟨p, hrow⟩ := exists_supportedRow (supported_iff_mem.2 hv)
    rw [exec_construct_of_capacity_lt l hs hrow hc, respond, hs]

end Sys2Proof.Machine
end

section
/-! PROOFS of the statements on the Pixel Buffer commands (`41_pixel_buffer.md`): GET_PIXEL (R143). -/

namespace Sys2Proof.Machine

/-! ### The payload word of GET_PIXEL (R94): zero in the top byte, the entry below it -/

/-- The word is `{0x00, R, G, B}`: a zero byte above the entry. -/
theorem pixel_setWidth_eq_append (px : Pixel) : px.setWidth 32 = 0#8 ++ px :=
  BitVec.setWidth_eq_append (by decide)

/-- The three bytes of the word below the top one are the channels of the entry (R141). -/
theorem pixel_setWidth_channels (px : Pixel) :
    (px.setWidth 32).extractLsb' 16 8 = red px ∧ (px.setWidth 32).extractLsb' 8 8 = green px ∧
      (px.setWidth 32).extractLsb' 0 8 = blue px :=
  ⟨BitVec.extractLsb'_setWidth_of_le (by decide), BitVec.extractLsb'_setWidth_of_le (by decide),
    BitVec.extractLsb'_setWidth_of_le (by decide)⟩

theorem pixel_setWidth_top (px : Pixel) : (px.setWidth 32).extractLsb' 24 8 = 0#8 := by
  rw [pixel_setWidth_eq_append, BitVec.extractLsb'_append_eq_left]

/-! ### GET_PIXEL (R143), an equation for each error; the success is `exec_getPixel_of_lt` -/

theorem exec_getPixel_of_ne_ready {s : State} (i : Count) (hs : s.state ≠ .ready) :
    exec (.getPixel i) s = .next (respond .illegalState [] s) := by
  simp only [exec, execGetPixel, if_pos hs, raiseError_eq]

theorem exec_getPixel_of_count_le {i : Count} {s : State} (hs : s.state = .ready)
    (hi : s.ledCount ≤ i) :
    exec (.getPixel i) s = .next (respond .indexOutOfRange [] s) := by
  have hrange : ¬ indexInRange i s = true :=
    fun h => Nat.not_lt.2 (BitVec.le_def.1 hi) (indexInRange_iff.1 h)
  simp only [exec, execGetPixel, hs, ne_eq, not_true_eq_false, if_false, if_pos hrange,
    raiseError_eq]

/-- Settles O23: one equation per outcome, and the bytes of the payload word. -/
theorem getPixelAnswersTheEntry : Obligations.GetPixelAnswersTheEntry := by
  refine fun s i => ⟨fun hs hi => ?entry, fun hs => ?illegal, fun hs hi => ?outOfRange⟩
  case entry =>
    refine ⟨(pixRead s i.toNat).setWidth 32, ?_, pixel_setWidth_top _, pixel_setWidth_channels _⟩
    rw [exec_getPixel_of_lt hs (BitVec.lt_def.1 hi), respond, hs]
  case illegal => rw [exec_getPixel_of_ne_ready i (by simp [hs]), respond, hs]
  case outOfRange => rw [exec_getPixel_of_count_le hs hi, respond, hs]

end Sys2Proof.Machine
end

section
/-! PROOFS of the statements on the Frame Encoder (`42_frame_encoder.md`): its three stages (R161 to R163),
the whole frame (R160, R164) and the waveform it stands for (R170). -/

namespace Sys2Proof.Machine

/-! ### Lists of equal blocks -/

/-- Where every entry becomes `n` items, item `n k + r` is item `r` of entry `k`. -/
theorem getElem?_flatMap_of_length {α β : Type} {f : α → List β} {n : Nat}
    (hf : ∀ a, (f a).length = n) (l : List α) (k : Nat) {r : Nat} (hr : r < n) :
    (l.flatMap f)[n * k + r]? = l[k]?.bind fun a => (f a)[r]? := by
  induction l generalizing k with
  | nil => simp
  | cons a rest ih =>
    rw [List.flatMap_cons]
    cases k with
    | zero => rw [Nat.mul_zero, Nat.zero_add, List.getElem?_append_left (by rwa [hf])]; rfl
    | succ k =>
      have hpos : n * (k + 1) + r = (f a).length + (n * k + r) := by rw [hf, Nat.mul_succ]; omega
      rw [hpos, List.getElem?_append_right (Nat.le_add_right _ _), Nat.add_sub_cancel_left, ih]
      rfl

/-! ### Serialization (R161) -/

/-- Byte `3 k + r` of a serialization is byte `r` of pixel `k` in wire order. -/
theorem serialize_getElem? (px : List Pixel) (k : Nat) {r : Nat} (hr : r < 3) :
    (serialize px)[3 * k + r]? = px[k]?.bind fun p => [green p, red p, blue p][r]? :=
  getElem?_flatMap_of_length (by simp) px k hr

/-- Settles O28: the three places of a pixel's block. -/
theorem serializeIsGreenRedBlue : Obligations.SerializeIsGreenRedBlue := by
  refine fun px => ⟨serialize_length px, fun k h => ?_⟩
  have hbyte {r : Nat} (hr : r < 3) :
      (serialize px)[3 * k + r]? = [green px[k], red px[k], blue px[k]][r]? := by
    rw [serialize_getElem? px k hr, List.getElem?_eq_getElem h]; rfl
  exact ⟨hbyte (r := 0) (by decide), hbyte (r := 1) (by decide), hbyte (r := 2) (by decide)⟩

/-! ### Expansion (R162) -/

/-- Settles O29: byte `j` gives pulse `8 j + k`, whose shape is that of its bit. -/
theorem expandIsMostSignificantBitFirst : Obligations.ExpandIsMostSignificantBitFirst := by
  refine fun s bs => ⟨expand_length s bs, fun j k h hk => ?_⟩
  rw [expand_getElem? s bs j k hk, List.getElem?_eq_getElem h, Option.map_some, bitPulse_eq]

/-- Expansion reads the profile registers alone. -/
theorem expand_congr {s t : State} (h : s.profile = t.profile) : expand s = expand t := by
  have hbyte : bytePulses s = bytePulses t := by
    funext b
    simp only [bytePulses, bitPulse_congr h]
  funext bs
  simp only [expand, hbyte]

/-! ### The patch (R163) -/

/-- The patched pulse of a bit is the last-pulse shape of that bit (R29). -/
theorem bitPulse_patched (s : State) (bit : Bool) :
    (⟨(bitPulse s bit).high, s.resetGap⟩ : Pulse) = shape s (if bit then 3 else 2) := by
  cases bit <;> rfl

/-- Settles O30: the patch of a sequence that has a last pulse, and the shape of the patched pulse. -/
theorem patchTouchesOnlyTheLastPulse : Obligations.PatchTouchesOnlyTheLastPulse := by
  refine fun s => ⟨patch_nil s, patch_append s, fun seq bit => ?_⟩
  rw [patch_append, bitPulse_patched]

/-- The patch reads `reset_gap` alone. -/
theorem patch_congr {s t : State} (h : s.resetGap = t.resetGap) : patch s = patch t := by
  funext seq
  simp only [patch, h]

/-! ### The whole frame (R160, R164) -/

/-- The visible pixels are the entries 0 to `LED_COUNT - 1` in index order. -/
theorem visiblePixels_getElem? {s : State} {i : Nat} (h : i < s.ledCount.toNat) :
    (visiblePixels s)[i]? = some (pixRead s i) := by
  rw [visiblePixels, List.getElem?_map, List.getElem?_range h, Option.map_some]

theorem encodeFrame_length (s : State) : (encodeFrame s).length = 24 * s.ledCount.toNat := by
  rw [encodeFrame, patch_length, expand_length, serialize_length, visiblePixels_length,
    ← Nat.mul_assoc]

/-- Settles O31: the length of each stage, and the visible pixels as the list. -/
theorem frameLengthIsTwentyFourPerLed : Obligations.FrameLengthIsTwentyFourPerLed := by
  refine fun s => ⟨encodeFrame_length s, ?bound, visiblePixels s, visiblePixels_length s,
    fun i hi => visiblePixels_getElem? hi, rfl⟩
  case bound =>
    have hcount : s.ledCount.toNat < 2 ^ 32 := s.ledCount.isLt
    rw [encodeFrame_length]
    omega

/-- The visible pixels are a function of `LED_COUNT` and the entries below it. -/
theorem visiblePixels_congr {s t : State} (hn : s.ledCount = t.ledCount)
    (hx : ∀ i < s.ledCount.toNat, pixRead s i = pixRead t i) :
    visiblePixels s = visiblePixels t := by
  rw [visiblePixels, visiblePixels, ← hn]
  exact List.map_congr_left fun i hi => hx i (List.mem_range.1 hi)

/-- Settles O34: serialization reads the visible pixels, expansion and patch the profile registers. -/
theorem frameDependsOnProfileAndVisiblePixels :
    Obligations.FrameDependsOnProfileAndVisiblePixels := by
  intro s t hprofile hcount hpixels
  have hgap : s.resetGap = t.resetGap := congrArg Profile.resetGap hprofile
  rw [encodeFrame, encodeFrame, visiblePixels_congr hcount hpixels, expand_congr hprofile,
    patch_congr hgap]

/-- A frame of at least one LED has a last pulse, and its low-duration is `reset_gap` (R163). -/
theorem encodeFrame_eq_append {s : State} (h : s.ledCount ≠ 0) :
    ∃ seq high, encodeFrame s = seq ++ [⟨high, s.resetGap⟩] := by
  have hne := encodeFrame_ne_nil s h
  rw [encodeFrame] at hne ⊢
  rcases List.eq_nil_or_concat' (expand s (serialize (visiblePixels s))) with hnil | ⟨seq, p, hseq⟩
  · exact absurd (by rw [hnil, patch_nil]) hne
  · exact ⟨seq, p.high, by rw [hseq, patch_append]⟩

/-! ### The waveform (R170) -/

/-- Two levels per pulse. -/
theorem waveform_length (l : List Pulse) : (waveform l).length = 2 * l.length := by
  simp [waveform, List.length_flatMap, Nat.mul_comm]

/-- Level `2 k + r` of a waveform is level `r` of pulse `k`, the high one first. -/
theorem waveform_getElem? (l : List Pulse) (k : Nat) {r : Nat} (hr : r < 2) :
    (waveform l)[2 * k + r]? = l[k]?.bind fun p => [(true, p.high), (false, p.low)][r]? :=
  getElem?_flatMap_of_length (by simp) l k hr

/-- The last level is the low of the last pulse. -/
theorem waveform_append_getLast? (l : List Pulse) (p : Pulse) :
    (waveform (l ++ [p])).getLast? = some (false, p.low) := by
  simp [waveform]

/-- The frame time is the sum of the waveform's durations. -/
theorem frameTime_eq_sum_waveform (l : List Pulse) :
    frameTime l = ((waveform l).map fun x => x.2.toNat).sum := by
  induction l with
  | nil => rfl
  | cons p rest ih =>
    have htime : frameTime (p :: rest) = p.high.toNat + p.low.toNat + frameTime rest := rfl
    have hwave : waveform (p :: rest) = (true, p.high) :: (false, p.low) :: waveform rest := rfl
    rw [htime, ih, hwave, List.map_cons, List.map_cons, List.sum_cons, List.sum_cons, Nat.add_assoc]

/-- Settles O36: the two places of a pulse's block, the sum of the durations, and the last level of a frame
that has a last pulse. -/
theorem frameEndsLowForTheResetGap : Obligations.FrameEndsLowForTheResetGap := by
  refine ⟨fun l => ⟨waveform_length l, fun k p hp => ?levels, frameTime_eq_sum_waveform l⟩,
    fun s hs => ?endsLow⟩
  case levels =>
    have hlevel {r : Nat} (hr : r < 2) :
        (waveform l)[2 * k + r]? = [(true, p.high), (false, p.low)][r]? := by
      rw [waveform_getElem? l k hr, hp]; rfl
    exact ⟨hlevel (r := 0) (by decide), hlevel (r := 1) (by decide)⟩
  case endsLow =>
    obtain ⟨seq, high, hframe⟩ := encodeFrame_eq_append hs
    rw [hframe, waveform_append_getLast?]

end Sys2Proof.Machine
end

section
/-! PROOFS of the statements on errors (`60_exceptions.md`): an error writes nothing (R202). -/

namespace Sys2Proof.Machine

/-! ### How a word is answered (R200) -/

/-- Bits [3:0] of a status word are the result code (R93). -/
theorem statusWord_result (e : ResultCode) (st : Lifecycle) :
    (statusWord e st).extractLsb' 0 4 = e.code :=
  BitVec.extractLsb'_append_eq_right

/-- A command that adds a response is answered OK, or all it does is answer with an error. The third case
is an UPDATE that goes to BUSY (R165). -/
theorem exec_answer_cases {i : Instr} {s t : State} (h : exec i s = .next t) :
    (∃ e, t = respond e [] s) ∨
    (∃ st payload, t.responses = s.responses ++ [⟨statusWord .ok st, payload⟩]) ∨
    t.responses = s.responses := by
  cases i with
  | construct v l c =>
    rcases execConstruct_cases h with ⟨_, rfl⟩ | ⟨_, _, rfl⟩ | ⟨_, _, _, rfl⟩ | ⟨_, _, _, _, rfl⟩
    · exact .inl ⟨_, rfl⟩
    · exact .inl ⟨_, rfl⟩
    · exact .inl ⟨_, rfl⟩
    · exact .inr (.inl ⟨_, _, rfl⟩)
  | setPixel i r g b =>
    rcases execSetPixel_cases h with ⟨_, rfl⟩ | ⟨_, _, rfl⟩ | ⟨_, _, rfl⟩
    · exact .inl ⟨_, rfl⟩
    · exact .inl ⟨_, rfl⟩
    · exact .inr (.inl ⟨_, _, rfl⟩)
  | getPixel i =>
    rcases execGetPixel_cases h with ⟨_, rfl⟩ | ⟨_, _, rfl⟩ | ⟨_, _, rfl⟩
    · exact .inl ⟨_, rfl⟩
    · exact .inl ⟨_, rfl⟩
    · exact .inr (.inl ⟨_, _, rfl⟩)
  | update =>
    rcases execUpdate_cases h with ⟨_, rfl⟩ | ⟨_, _, rfl⟩ | ⟨_, _, rfl⟩
    · exact .inl ⟨_, rfl⟩
    · exact .inr (.inl ⟨_, _, rfl⟩)
    · exact .inr (.inr rfl)
  | lookupProfile v =>
    rcases execLookupProfile_cases h with ⟨_, rfl⟩ | ⟨_, _, rfl⟩
    · exact .inl ⟨_, rfl⟩
    · exact .inr (.inl ⟨_, _, rfl⟩)
  | getConfig => cases h; exact .inr (.inl ⟨_, _, rfl⟩)

/-- The same of a step that may take a word: an error, that of a reserved word too, only takes the word
and answers. -/
theorem takeCommand_answer_cases {s t : State} (h : takeCommand s = .next t) :
    (∃ e, t = respond e [] { s with cmdPort := s.cmdPort.tail }) ∨
    (∃ st payload, t.responses = s.responses ++ [⟨statusWord .ok st, payload⟩]) ∨
    t.responses = s.responses := by
  rcases takeCommand_cases h with ⟨_, rfl⟩ | ⟨w, rest, hport, ⟨i, _, hexec⟩ | ⟨_, _, rfl⟩⟩
  · exact .inr (.inr rfl)
  · rw [hport]; exact exec_answer_cases hexec
  · rw [hport]; exact .inl ⟨_, rfl⟩

/-! ### How an UPDATE ends (R165) -/

/-- In READY with a LED, UPDATE sends its request and goes to BUSY. -/
theorem eq_txIssue_of_exec_update {s t : State} (hs : s.state = .ready) (hn : s.ledCount ≠ 0)
    (h : exec .update s = .next t) :
    t = txIssue .update s.line true ((encodeFrame s).map Pulse.descriptor)
      { s with state := .busy } := by
  rcases execUpdate_cases h with ⟨hne, _⟩ | ⟨_, hzero, _⟩ | ⟨_, _, ht⟩
  · exact absurd hs hne
  · exact absurd hzero hn
  · exact ht

/-- The wait leaves BUSY only by the answer at the head of the port. -/
theorem awaitTx_leaves_busy {s u : State} {a : TxResp} {rest : List TxResp}
    (hport : s.txPort = a :: rest) (hs : s.state = .busy) (hu : u.state ≠ .busy)
    (h : awaitTx s = .next u) : u = txFinish a.ok { s with txPort := rest } := by
  rcases awaitTx_cases h with ⟨hnil, _⟩ | ⟨r, rest', hcons, ⟨_, rfl⟩ | ⟨_, _, rfl⟩⟩
  · cases hport.symm.trans hnil
  · cases hport.symm.trans hcons; rfl
  · exact absurd hs hu

/-- Settles O43: an answer that is not OK is an error's, which is the whole of its step; and an UPDATE that
fails goes to BUSY and back, which writes `STATE` alone. -/
theorem errorsWriteNothing : Obligations.ErrorsWriteNothing := by
  refine ⟨fun s t r hr hs hstep hresp herror => ?answered,
    fun s t u a hs hn hr hport hok hexec hstep hu => ?failed⟩
  case answered =>
    rw [step_of_ne_busy hr hs] at hstep
    rcases takeCommand_answer_cases hstep with ⟨e, rfl⟩ | ⟨st, payload, hanswer⟩ | hsilent
    · obtain rfl : _ = r := by simpa using hresp
      exact ⟨rfl, rfl⟩
    · obtain rfl : _ = r := by simpa using hanswer.symm.trans hresp
      exact absurd (statusWord_result .ok st) herror
    · simp [hsilent] at hresp
  case failed =>
    obtain rfl := eq_txIssue_of_exec_update hs hn hexec
    rcases step_cases hstep with ⟨hasserted, _⟩ | ⟨_, _, hwait⟩ | ⟨_, hne, _⟩
    · exact absurd hr hasserted
    · obtain rfl := awaitTx_leaves_busy (rest := []) (congrArg (· ++ [a]) hport) rfl hu hwait
      exact ⟨by rw [hok]; rfl, hs.symm, rfl, rfl⟩
    · exact absurd rfl hne

end Sys2Proof.Machine
end

section
/-! PROOFS of the statements on the encoding (`30_encoding.md`) that take a word apart and put it together:
the round trips of the decoder (R82 to R89), the status word (R93) and the assembly (R98). -/

namespace Sys2Proof

/-! ### Fields of a word as numbers -/

section
variable {w : CommandWord} {lo width : Nat}

theorem bits_eq_of_toNat {v : BitVec width} (h : w.toNat / 2 ^ lo % 2 ^ width = v.toNat) :
    bits w lo width = v :=
  BitVec.eq_of_toNat_eq ((bits_toNat w lo width).trans h)

theorem bits_eq_zero_of_toNat (h : w.toNat / 2 ^ lo % 2 ^ width = 0) : bits w lo width = 0 :=
  bits_eq_of_toNat (h.trans BitVec.toNat_zero.symm)

theorem toNat_of_bits_eq {v : BitVec width} (h : bits w lo width = v) :
    w.toNat / 2 ^ lo % 2 ^ width = v.toNat := by
  rw [← bits_toNat, h]

end

/-! ### Decode of encode (R82 to R89), one format at a time -/

section
open Sys2Proof.Laws

theorem decode_encode_construct (v : VariantCode) (l : LineId) (c : Count) :
    decode (encode (.construct v l c)) = .ok (.construct v l c) := by
  have hw := encode_construct_toNat v l c
  rw [decode_of_opcode_construct (OpcodeField.construct v l c).1,
    if_pos (bits_eq_zero_of_toNat (by omega)),
    bits_eq_of_toNat (v := v) (by omega), bits_eq_of_toNat (v := l) (by omega),
    bits_eq_of_toNat (v := c) (by omega)]

theorem decode_encode_setPixel (i : Count) (r g b : Byte) :
    decode (encode (.setPixel i r g b)) = .ok (.setPixel i r g b) := by
  have hw := encode_setPixel_toNat i r g b
  rw [decode_of_opcode_setPixel (OpcodeField.setPixel i r g b).1,
    if_pos (bits_eq_zero_of_toNat (by omega)),
    bits_eq_of_toNat (v := i) (by omega), bits_eq_of_toNat (v := r) (by omega),
    bits_eq_of_toNat (v := g) (by omega), bits_eq_of_toNat (v := b) (by omega)]

theorem decode_encode_getPixel (i : Count) :
    decode (encode (.getPixel i)) = .ok (.getPixel i) := by
  have hw := encode_getPixel_toNat i
  rw [decode_of_opcode_getPixel (OpcodeField.getPixel i).1,
    if_pos (bits_eq_zero_of_toNat (by omega)),
    bits_eq_of_toNat (v := i) (by omega)]

theorem decode_encode_lookupProfile (v : VariantCode) :
    decode (encode (.lookupProfile v)) = .ok (.lookupProfile v) := by
  have hw := encode_lookupProfile_toNat v
  rw [decode_of_opcode_lookupProfile (OpcodeField.lookupProfile v).1,
    if_pos (bits_eq_zero_of_toNat (by omega)),
    bits_eq_of_toNat (v := v) (by omega)]

end

/-- Settles O1, format by format: each field of the word is the operand written there, and each field
that must be 0 is 0. -/
theorem decodeOfEncodeIsTheCommand : Obligations.DecodeOfEncodeIsTheCommand := by
  intro i
  cases i with
  | construct v l c => exact decode_encode_construct v l c
  | setPixel i r g b => exact decode_encode_setPixel i r g b
  | getPixel i => exact decode_encode_getPixel i
  | update => decide
  | lookupProfile v => exact decode_encode_lookupProfile v
  | getConfig => decide

/-! ### Encode of decode (R82 to R89): a word is the sum of its opcode and its fields -/

section
variable {w : CommandWord}

theorem encode_setPixel_bits (hop : opcodeOf w = 0x2) (hz : bits w 56 4 = 0) :
    encode (.setPixel (bits w 0 32) (bits w 48 8) (bits w 40 8) (bits w 32 8)) = w := by
  have hop : w.toNat / 2 ^ 60 % 2 ^ 4 = 2 := toNat_of_bits_eq hop
  have hz : w.toNat / 2 ^ 56 % 2 ^ 4 = 0 := toNat_of_bits_eq hz
  apply BitVec.eq_of_toNat_eq
  simp only [encode_setPixel_toNat, bits_toNat]
  omega

theorem encode_getPixel_bits (hop : opcodeOf w = 0x3) (hz : bits w 32 28 = 0) :
    encode (.getPixel (bits w 0 32)) = w := by
  have hop : w.toNat / 2 ^ 60 % 2 ^ 4 = 3 := toNat_of_bits_eq hop
  have hz : w.toNat / 2 ^ 32 % 2 ^ 28 = 0 := toNat_of_bits_eq hz
  apply BitVec.eq_of_toNat_eq
  simp only [encode_getPixel_toNat, bits_toNat]
  omega

theorem encode_update_bits (hop : opcodeOf w = 0x4) (hz : bits w 0 60 = 0) :
    encode .update = w := by
  have hop : w.toNat / 2 ^ 60 % 2 ^ 4 = 4 := toNat_of_bits_eq hop
  have hz : w.toNat / 2 ^ 0 % 2 ^ 60 = 0 := toNat_of_bits_eq hz
  apply BitVec.eq_of_toNat_eq
  rw [encode_update_toNat]
  omega

theorem encode_lookupProfile_bits (hop : opcodeOf w = 0x5) (hz : bits w 0 56 = 0) :
    encode (.lookupProfile (bits w 56 4)) = w := by
  have hop : w.toNat / 2 ^ 60 % 2 ^ 4 = 5 := toNat_of_bits_eq hop
  have hz : w.toNat / 2 ^ 0 % 2 ^ 56 = 0 := toNat_of_bits_eq hz
  apply BitVec.eq_of_toNat_eq
  simp only [encode_lookupProfile_toNat, bits_toNat]
  omega

theorem encode_getConfig_bits (hop : opcodeOf w = 0x6) (hz : bits w 0 60 = 0) :
    encode .getConfig = w := by
  have hop : w.toNat / 2 ^ 60 % 2 ^ 4 = 6 := toNat_of_bits_eq hop
  have hz : w.toNat / 2 ^ 0 % 2 ^ 60 = 0 := toNat_of_bits_eq hz
  apply BitVec.eq_of_toNat_eq
  rw [encode_getConfig_toNat]
  omega

end

/-- Settles O2, along the branches of the decoder: each answers a command only for the format's opcode
and with the field that must be 0 at 0, and opcode and fields then make up the whole word. -/
theorem encodeOfDecodeIsTheWord : Obligations.EncodeOfDecodeIsTheWord := by
  intro w i h
  simp only [decode] at h
  split_ifs at h with hconstruct hsetPixel hgetPixel hupdate hlookup hgetConfig
  case pos => cases h; exact encode_construct_bits hconstruct.1 hconstruct.2
  case pos => cases h; exact encode_setPixel_bits hsetPixel.1 hsetPixel.2
  case pos => cases h; exact encode_getPixel_bits hgetPixel.1 hgetPixel.2
  case pos => cases h; exact encode_update_bits hupdate.1 hupdate.2
  case pos => cases h; exact encode_lookupProfile_bits hlookup.1 hlookup.2
  case pos => cases h; exact encode_getConfig_bits hgetConfig.1 hgetConfig.2

/-- Settles O4: twelve closed words, by evaluation. -/
theorem wordsDecodeAsTheVectorsSay : Obligations.WordsDecodeAsTheVectorsSay := by
  unfold Obligations.WordsDecodeAsTheVectorsSay
  decide

end Sys2Proof

namespace Sys2Proof.Machine

/-! ### The status word (R93) -/

/-- The reader of a result code inverts R95's codes. -/
theorem resultOf_eq_some_iff {c : BitVec 4} {r : ResultCode} : resultOf c = some r ↔ c = r.code := by
  revert c; cases r <;> decide

/-- The reader of a lifecycle code inverts R21's codes. -/
theorem lifecycleOf_eq_some_iff {c : BitVec 2} {st : Lifecycle} :
    lifecycleOf c = some st ↔ c = st.code := by
  revert c; cases st <;> decide

/-- A word is a status word exactly when its four fields are (R93). -/
theorem eq_statusWord_iff {w : ResponseWord} {r : ResultCode} {st : Lifecycle} :
    w = statusWord r st ↔ w.extractLsb' 0 4 = r.code ∧ w.extractLsb' 4 4 = 0 ∧
      w.extractLsb' 8 2 = st.code ∧ w.extractLsb' 10 22 = 0 := by
  have hword : (statusWord r st).toNat = st.code.toNat * 2 ^ 8 + r.code.toNat := by
    rw [show statusWord r st = (0#22 ++ st.code ++ 0#4 ++ r.code : BitVec (22 + 2 + 4 + 4)) from rfl]
    simp only [toNat_append_add, BitVec.toNat_ofNat]
    omega
  simp only [← BitVec.toNat_inj, hword, BitVec.extractLsb'_toNat, Nat.shiftRight_eq_div_pow,
    BitVec.ofNat_eq_ofNat, BitVec.toNat_ofNat]
  omega

/-- A status word fixes its state: the codes of R21 are distinct. -/
theorem statusWord_state_inj {r r' : ResultCode} {st st' : Lifecycle}
    (h : statusWord r st = statusWord r' st') : st = st' := by
  obtain ⟨_, _, hst, _⟩ := eq_statusWord_iff.1 h
  obtain ⟨_, _, hst', _⟩ := eq_statusWord_iff.1 (rfl : statusWord r st = statusWord r st)
  exact Option.some_injective _
    ((lifecycleOf_eq_some_iff.2 hst').symm.trans (lifecycleOf_eq_some_iff.2 hst))

/-- A host reads the status words whose state is not BUSY, and no other word (R93, I14). -/
theorem readStatus_eq_some_iff {w : ResponseWord} {r : ResultCode} {st : Lifecycle} :
    readStatus w = some (r, st) ↔ w = statusWord r st ∧ st ≠ .busy := by
  rw [eq_statusWord_iff, ← resultOf_eq_some_iff, ← lifecycleOf_eq_some_iff, readStatus]
  generalize resultOf _ = result, lifecycleOf _ = state
  rcases result with _ | r' <;> rcases state with _ | _ | _ | _ <;> grind

theorem readStatus_statusWord (r : ResultCode) (st : Lifecycle) :
    readStatus (statusWord r st) = if st = .busy then none else some (r, st) := by
  split_ifs with hbusy
  · refine Option.eq_none_iff_forall_not_mem.2 fun ⟨r', st'⟩ h => ?_
    obtain ⟨hword, hst'⟩ := readStatus_eq_some_iff.1 h
    exact hst' ((statusWord_state_inj hword).symm.trans hbusy)
  · exact readStatus_eq_some_iff.2 ⟨rfl, hbusy⟩

/-- Settles O5: the codes by evaluation, the fields of a status word, and which words are read as one. -/
theorem statusWordHasTheFormat : Obligations.StatusWordHasTheFormat := by
  refine ⟨rfl, rfl, fun r st => ?_, fun w r st h => (readStatus_eq_some_iff.1 h).1⟩
  obtain ⟨hresult, hlow, hstate, hhigh⟩ := eq_statusWord_iff.1 (rfl : statusWord r st = _)
  exact ⟨hresult, hlow, hstate, hhigh, readStatus_statusWord r st⟩

/-! ### The assembly (R98) -/

/-- An operand in its range is not wrapped (R98). -/
theorem toNat_ofNat_of_lt {width n : Nat} (h : n < 2 ^ width) :
    (BitVec.ofNat width n).toNat = n := by
  rw [BitVec.toNat_ofNat, Nat.mod_eq_of_lt h]

/-- A statement in range that names a command assembles to a word that decodes to that command. -/
theorem exists_asmWord_of_asmInstr {a : AsmStmt} {i : Instr} (hwf : a.wellFormed = true)
    (hi : asmInstr a = some i) : ∃ w, asmWord a = some w ∧ decode w = .ok i := by
  refine ⟨encode i, ?_, decodeOfEncodeIsTheCommand i⟩
  cases a with
  | word64 v => cases hi
  | _ => simp only [asmWord, hwf, if_true, hi, Option.map_some]

/-- Settles O7: a statement in range names its command, with the operands as they were written. -/
theorem assemblyIsTheWordOrAnError : Obligations.AssemblyIsTheWordOrAnError := by
  refine ⟨fun a hwf => ?outOfRange, fun v c l hv hc hl => ?construct,
    fun n r g b hn hr hg hb => ?setPixel, fun n hn => ?getPixel, fun v hv => ?lookupProfile,
    exists_asmWord_of_asmInstr rfl rfl, exists_asmWord_of_asmInstr rfl rfl, fun v hv => ?word64⟩
  case outOfRange => simp only [asmWord, hwf, Bool.false_eq_true, if_false]
  case construct =>
    have hwf : (AsmStmt.construct v c l).wellFormed = true := by
      simp only [AsmStmt.wellFormed, AsmStmt.variantOk, AsmStmt.countOk, AsmStmt.byteOk, hv, hc, hl,
        decide_true, Bool.and_self]
    obtain ⟨w, hasm, hdec⟩ := exists_asmWord_of_asmInstr hwf rfl
    exact ⟨w, _, hasm, hdec, _, _, _, rfl, toNat_ofNat_of_lt hv, toNat_ofNat_of_lt hl,
      toNat_ofNat_of_lt hc⟩
  case setPixel =>
    have hwf : (AsmStmt.setPixel n r g b).wellFormed = true := by
      simp only [AsmStmt.wellFormed, AsmStmt.countOk, AsmStmt.byteOk, hn, hr, hg, hb, decide_true,
        Bool.and_self]
    obtain ⟨w, hasm, hdec⟩ := exists_asmWord_of_asmInstr hwf rfl
    exact ⟨w, _, hasm, hdec, _, _, _, _, rfl, toNat_ofNat_of_lt hn, toNat_ofNat_of_lt hr,
      toNat_ofNat_of_lt hg, toNat_ofNat_of_lt hb⟩
  case getPixel =>
    have hwf : (AsmStmt.getPixel n).wellFormed = true := decide_eq_true hn
    obtain ⟨w, hasm, hdec⟩ := exists_asmWord_of_asmInstr hwf rfl
    exact ⟨w, _, hasm, hdec, toNat_ofNat_of_lt hn⟩
  case lookupProfile =>
    have hwf : (AsmStmt.lookupProfile v).wellFormed = true := decide_eq_true hv
    obtain ⟨w, hasm, hdec⟩ := exists_asmWord_of_asmInstr hwf rfl
    exact ⟨w, _, hasm, hdec, toNat_ofNat_of_lt hv⟩
  case word64 =>
    have hwf : (AsmStmt.word64 v).wellFormed = true := decide_eq_true hv
    exact ⟨.ofNat 64 v, by rw [asmWord, if_pos hwf], toNat_ofNat_of_lt hv⟩

end Sys2Proof.Machine
end

section
/-! PROOFS of the statements on one step of the block: the reset (R230), the wait for the adapter (R234,
R235), the command taken (R70, R89, R200), the lifecycle (R21) and what stops the block (R171). -/

namespace Sys2Proof.Machine

/-! ### The reset (R230) -/

theorem step_of_reset {s : State} (hr : s.resetIn ≠ .released) : step s = .next (takeReset s) := by
  rw [step, if_pos hr]

/-- Settles O8: the reset state by evaluation, and its shapes as those of the Null profile. -/
theorem resetLeavesTheNullProfile : Obligations.ResetLeavesTheNullProfile :=
  ⟨rfl, rfl, rfl, rfl, rfl, rfl, rfl, rfl, rfl, rfl, rfl, shape_of_nullProfile rfl⟩

/-- Settles O9: the step is the reset event, which writes every register and sends nothing. -/
theorem resetWinsAndAnswersNothing : Obligations.ResetWinsAndAnswersNothing :=
  fun _ hr => ⟨_, step_of_reset hr, rfl, rfl, rfl, rfl, rfl, rfl, rfl, rfl, rfl, rfl⟩

/-- Settles O10: the reset event keeps the transmit port, and takes a word off the command port only when it
meets a command that the block had taken. -/
theorem resetKeepsTheWaitingWords : Obligations.ResetKeepsTheWaitingWords := by
  intro s t hr hstep
  obtain rfl : takeReset s = t := by simpa [step_of_reset hr] using hstep
  have hport : (takeReset s).cmdPort =
      if s.resetIn = .duringCommand ∧ s.state ≠ .busy then s.cmdPort.drop 1 else s.cmdPort := rfl
  refine ⟨rfl, rfl, rfl, fun hkept => ?_, fun ⟨hs, hduring⟩ => ?_⟩
  · rw [hport, if_neg]
    rintro ⟨hduring, hs⟩
    rcases hkept with hbusy | hbetween
    · exact hs hbusy
    · cases hduring.symm.trans hbetween
  · rw [hport, if_pos ⟨hduring, hs⟩, List.drop_one]

/-! ### The wait for the adapter (R171, R234, R235) -/

theorem step_of_busy {s : State} (hr : s.resetIn = .released) (hs : s.state = .busy) :
    step s = awaitTx s := by
  simp only [step, hr, hs, ne_eq, not_true_eq_false, if_false, if_true]

theorem answersPending_iff {r : TxResp} {s : State} :
    answersPending r s = true ↔ ∃ p ∈ s.pending, p.request = r.request := by
  simp only [answersPending, Option.any_eq_true, Option.mem_def, decide_eq_true_eq]

theorem answersPending_eq_false_iff {r : TxResp} {s : State} :
    answersPending r s = false ↔ ∀ p ∈ s.pending, p.request ≠ r.request := by
  rw [← Bool.not_eq_true, answersPending_iff, not_exists]
  exact forall_congr' fun _ => not_and

theorem answersAbandoned_iff {r : TxResp} {s : State} :
    answersAbandoned r s = true ↔ r.request ∈ s.abandoned := by
  simp [answersAbandoned]

theorem awaitTx_of_no_answer {s : State} (hport : s.txPort = []) : awaitTx s = .next s := by
  simp only [awaitTx, hport]

section
variable {s : State} {r : TxResp} {rest : List TxResp}

theorem awaitTx_of_answersPending (hport : s.txPort = r :: rest) (hp : answersPending r s = true) :
    awaitTx s = .next (txFinish r.ok { s with txPort := rest }) := by
  simp only [awaitTx, hport, hp, if_true]

theorem awaitTx_of_answersAbandoned (hport : s.txPort = r :: rest)
    (hp : answersPending r s = false) (ha : answersAbandoned r s = true) :
    awaitTx s = .next { s with txPort := rest, abandoned := s.abandoned.erase r.request } := by
  simp only [awaitTx, hport, hp, ha, Bool.false_eq_true, if_false, if_true]

theorem awaitTx_of_breach (hport : s.txPort = r :: rest)
    (hp : answersPending r s = false) (ha : answersAbandoned r s = false) :
    awaitTx s = .fault .adapterContract := by
  simp only [awaitTx, hport, hp, ha, Bool.false_eq_true, if_false]

end

/-- Settles O11: the number is not the pending one and is among the abandoned ones. -/
theorem lateAnswerIsIgnored : Obligations.LateAnswerIsIgnored := by
  intro s n ok rest hr hs hport hlate hpending
  rw [step_of_busy hr hs, awaitTx_of_answersAbandoned hport
    (answersPending_eq_false_iff.2 hpending) (answersAbandoned_iff.2 hlate)]

/-- Settles O15: the wait with no answer. -/
theorem noAnswerKeepsTheBlockBusy : Obligations.NoAnswerKeepsTheBlockBusy := by
  intro s hr hs hport
  rw [step_of_busy hr hs, awaitTx_of_no_answer hport]

/-- Settles O14: the wait only takes an answer, ends the UPDATE or forgets an abandoned request. -/
theorem busyTakesNoCommand : Obligations.BusyTakesNoCommand := by
  intro s t hr hs hstep
  rw [step_of_busy hr hs] at hstep
  rcases awaitTx_cases hstep with ⟨_, rfl⟩ | ⟨_, _, _, ⟨_, rfl⟩ | ⟨_, _, rfl⟩⟩ <;>
    exact ⟨rfl, rfl, rfl, rfl, rfl⟩

/-! ### The command taken (R70, R89, R200) -/

/-- What taking a word that decodes to `d` can do: answer, and nothing else, or one of the three effects of a
command that writes. -/
inductive WordEffect (d : Except Reserved Instr) (s : State) : State → Prop
  /-- An error, a reading command, or an UPDATE of an empty frame. An error has no payload (R94). -/
  | answered (result : ResultCode) (payload : List ResponseWord)
      (hpayload : result = .ok ∨ payload = []) : WordEffect d s (respond result payload s)
  /-- A CONSTRUCT that succeeds (R113). -/
  | constructed {v : VariantCode} {l : LineId} {c : Count} {p : Profile}
      (hd : d = .ok (.construct v l c)) (hs : s.state = .uninit) (hrow : supportedRow v = some p)
      (hc : c ≤ s.maxLeds) :
      WordEffect d s (respond .ok []
        { allocate c (latchConfig v l c (latchProfile p s)) with state := .ready })
  /-- A SET_PIXEL that succeeds (R142). -/
  | pixelWritten {i : Count} {r g b : Byte} (hd : d = .ok (.setPixel i r g b))
      (hs : s.state = .ready) (hi : i < s.ledCount) :
      WordEffect d s (respond .ok [] (pixWrite i.toNat (packPixel r g b) s))
  /-- An UPDATE that sends its frame (R165). -/
  | frameSent (hd : d = .ok .update) (hs : s.state = .ready) (hn : s.ledCount ≠ 0) :
      WordEffect d s (txIssue .update s.line true ((encodeFrame s).map Pulse.descriptor)
        { s with state := .busy })

theorem exec_wordEffect {i : Instr} {s t : State} (h : exec i s = .next t) :
    WordEffect (.ok i) s t := by
  cases i with
  | construct v l c =>
    rcases execConstruct_cases h with ⟨_, rfl⟩ | ⟨_, _, rfl⟩ | ⟨_, _, _, rfl⟩ | ⟨p, hs, hrow, hc, rfl⟩
    · exact .answered _ _ (.inr rfl)
    · exact .answered _ _ (.inr rfl)
    · exact .answered _ _ (.inr rfl)
    · exact .constructed rfl hs hrow hc
  | setPixel i r g b =>
    rcases execSetPixel_cases h with ⟨_, rfl⟩ | ⟨_, _, rfl⟩ | ⟨hs, hi, rfl⟩
    · exact .answered _ _ (.inr rfl)
    · exact .answered _ _ (.inr rfl)
    · exact .pixelWritten rfl hs hi
  | getPixel i =>
    rcases execGetPixel_cases h with ⟨_, rfl⟩ | ⟨_, _, rfl⟩ | ⟨_, _, rfl⟩
    · exact .answered _ _ (.inr rfl)
    · exact .answered _ _ (.inr rfl)
    · exact .answered _ _ (.inl rfl)
  | update =>
    rcases execUpdate_cases h with ⟨_, rfl⟩ | ⟨_, _, rfl⟩ | ⟨hs, hn, rfl⟩
    · exact .answered _ _ (.inr rfl)
    · exact .answered _ _ (.inl rfl)
    · exact .frameSent rfl hs hn
  | lookupProfile v =>
    rcases execLookupProfile_cases h with ⟨_, rfl⟩ | ⟨_, _, rfl⟩
    · exact .answered _ _ (.inr rfl)
    · exact .answered _ _ (.inl rfl)
  | getConfig => cases h; exact .answered _ _ (.inl rfl)

/-- Outside BUSY a step idles, or takes the word at the head of the port. -/
theorem takeCommand_wordEffect {s t : State} (h : takeCommand s = .next t) :
    (s.cmdPort = [] ∧ t = s) ∨ ∃ w rest, s.cmdPort = w :: rest ∧
      WordEffect (decode w) { s with cmdPort := rest } t := by
  rcases takeCommand_cases h with hidle | ⟨w, rest, hport, ⟨i, hdec, hexec⟩ | ⟨e, _, rfl⟩⟩
  · exact .inl hidle
  · exact .inr ⟨w, rest, hport, hdec ▸ exec_wordEffect hexec⟩
  · exact .inr ⟨w, rest, hport, .answered _ _ (.inr rfl)⟩

theorem takeCommand_of_empty {s : State} (hport : s.cmdPort = []) : takeCommand s = .next s := by
  simp only [takeCommand, hport]

theorem takeCommand_of_decode {s : State} {w : CommandWord} {rest : List CommandWord} {i : Instr}
    (hport : s.cmdPort = w :: rest) (hdec : decode w = .ok i) :
    takeCommand s = exec i { s with cmdPort := rest } := by
  simp only [takeCommand, hport, hdec]

/-- Outside BUSY nothing stops the block. -/
theorem takeCommand_next (s : State) : ∃ t, takeCommand s = .next t := by
  rcases hport : s.cmdPort with _ | ⟨w, rest⟩
  · exact ⟨s, takeCommand_of_empty hport⟩
  · rcases hdec : decode w with e | i
    · exact ⟨_, takeCommand_of_reserved hport hdec⟩
    · rw [takeCommand_of_decode hport hdec]; exact exec_next i _

/-- Settles O12: the head of the port decodes to its command. -/
theorem stepPerformsTheDecodedCommand : Obligations.StepPerformsTheDecodedCommand := by
  intro s i rest hr hs hport
  rw [step_of_ne_busy hr hs, takeCommand_of_decode hport (decodeOfEncodeIsTheCommand i)]

/-- Settles O16: a run that has ended has an empty command port, and outside BUSY. -/
theorem idleBlockKeepsItsState : Obligations.IdleBlockKeepsItsState := by
  intro s hr hended
  obtain ⟨hport, hs⟩ : s.cmdPort = [] ∧ s.state ≠ .busy := by simpa [runEnded] using hended
  exact ⟨by rw [step_of_ne_busy hr hs, takeCommand_of_empty hport], hport, decide_eq_false hs⟩

/-- A word taken outside BUSY has its one response, or the block goes BUSY with none yet (R200). -/
theorem WordEffect.one_response {d : Except Reserved Instr} {s t : State} (h : WordEffect d s t)
    (hs : s.state ≠ .busy) :
    (t.state = .busy ∧ t.responses = s.responses) ∨
      (t.state ≠ .busy ∧ ∃ r, t.responses = s.responses ++ [r]) := by
  cases h with
  | answered result payload _ => exact .inr ⟨hs, _, rfl⟩
  | constructed _ _ _ _ => exact .inr ⟨nofun, _, rfl⟩
  | pixelWritten _ _ _ => exact .inr ⟨hs, _, rfl⟩
  | frameSent _ _ _ => exact .inl ⟨rfl, rfl⟩

theorem WordEffect.cmdPort_eq {d : Except Reserved Instr} {s t : State} (h : WordEffect d s t) :
    t.cmdPort = s.cmdPort := by
  cases h <;> rfl

/-- Settles O17: a word taken, by its effect; the wait, by its three outcomes. -/
theorem oneResponsePerCommandTaken : Obligations.OneResponsePerCommandTaken := by
  refine ⟨fun s t w rest hr hs hport hstep => ?taken, fun s t hr hs hstep => ?waited⟩
  case taken =>
    rw [step_of_ne_busy hr hs] at hstep
    rcases takeCommand_wordEffect hstep with ⟨hnil, _⟩ | ⟨_, _, hcons, heffect⟩
    · cases hport.symm.trans hnil
    · cases hport.symm.trans hcons
      exact ⟨heffect.cmdPort_eq, heffect.one_response hs⟩
  case waited =>
    rw [step_of_busy hr hs] at hstep
    rcases awaitTx_cases hstep with ⟨_, rfl⟩ | ⟨r, _, _, ⟨_, rfl⟩ | ⟨_, _, rfl⟩⟩
    · exact .inl ⟨hs, rfl⟩
    · exact .inr ⟨rfl, _, rfl⟩
    · exact .inl ⟨hs, rfl⟩

/-! ### The lifecycle (R21) -/

/-- A word taken keeps `STATE`, but for a CONSTRUCT and an UPDATE. -/
theorem WordEffect.state_edge {d : Except Reserved Instr} {s t : State} (h : WordEffect d s t) :
    t.state = s.state ∨ (s.state = .uninit ∧ t.state = .ready) ∨
      (s.state = .ready ∧ t.state = .busy) := by
  cases h with
  | answered _ _ _ => exact .inl rfl
  | constructed _ hs _ _ => exact .inr (.inl ⟨hs, rfl⟩)
  | pixelWritten _ _ _ => exact .inl rfl
  | frameSent _ hs _ => exact .inr (.inr ⟨hs, rfl⟩)

/-- Settles O45: the wait leaves BUSY only for READY, and a word taken has the other two edges. -/
theorem lifecycleHasOnlyItsEdges : Obligations.LifecycleHasOnlyItsEdges := by
  intro s t hr hstep hchanged
  rcases step_cases hstep with ⟨hasserted, _⟩ | ⟨_, hs, hwait⟩ | ⟨_, _, htake⟩
  · exact absurd hr hasserted
  · rcases awaitTx_cases hwait with ⟨_, rfl⟩ | ⟨_, _, _, ⟨_, rfl⟩ | ⟨_, _, rfl⟩⟩
    · exact absurd rfl hchanged
    · exact .inr (.inr ⟨hs, rfl⟩)
    · exact absurd rfl hchanged
  · rcases takeCommand_wordEffect htake with ⟨_, rfl⟩ | ⟨_, _, _, heffect⟩
    · exact absurd rfl hchanged
    · rcases heffect.state_edge with hkeep | hconstruct | hupdate
      · exact absurd hkeep hchanged
      · exact .inl hconstruct
      · exact .inr (.inl hupdate)

/-! ### What stops the block (R171) -/

/-- The wait goes on, or it meets an answer to no request the block knows. -/
theorem awaitTx_next_or_breach (s : State) :
    (∃ t, awaitTx s = .next t) ∨ (awaitTx s = .fault .adapterContract ∧
      ∃ r rest, s.txPort = r :: rest ∧ answersPending r s = false ∧ answersAbandoned r s = false) := by
  rcases hport : s.txPort with _ | ⟨r, rest⟩
  · exact .inl ⟨s, awaitTx_of_no_answer hport⟩
  · cases hp : answersPending r s with
    | true => exact .inl ⟨_, awaitTx_of_answersPending hport hp⟩
    | false =>
      cases ha : answersAbandoned r s with
      | true => exact .inl ⟨_, awaitTx_of_answersAbandoned hport hp ha⟩
      | false => exact .inr ⟨awaitTx_of_breach hport hp ha, r, rest, rfl, hp, ha⟩

/-- A step goes on, or it is a wait that meets such an answer. -/
theorem step_next_or_breach (s : State) :
    (∃ t, step s = .next t) ∨ (step s = .fault .adapterContract ∧ s.resetIn = .released ∧
      s.state = .busy ∧
      ∃ r rest, s.txPort = r :: rest ∧ answersPending r s = false ∧ answersAbandoned r s = false) := by
  by_cases hr : s.resetIn = .released
  · by_cases hs : s.state = .busy
    · rw [step_of_busy hr hs]
      rcases awaitTx_next_or_breach s with hnext | ⟨hfault, hbreach⟩
      · exact .inl hnext
      · exact .inr ⟨hfault, hr, hs, hbreach⟩
    · rw [step_of_ne_busy hr hs]
      exact .inl (takeCommand_next s)
  · exact .inl ⟨_, step_of_reset hr⟩

/-- Settles O46: only the wait can stop, and the answer it then meets is a breach. -/
theorem onlyAnAdapterBreachStops : Obligations.OnlyAnAdapterBreachStops := by
  refine ⟨fun s f => ⟨fun hfault => ?breach, ?stops⟩, fun s r hrefused => ?refused⟩
  case breach =>
    rcases step_next_or_breach s with ⟨t, hnext⟩ | ⟨hstop, hr, hs, r, rest, hport, hp, ha⟩
    · cases hfault.symm.trans hnext
    · cases hfault.symm.trans hstop
      exact ⟨rfl, hr, hs, r, rest, hport, fun hlate => by simp [answersAbandoned_iff.2 hlate] at ha,
        answersPending_eq_false_iff.1 hp⟩
  case stops =>
    rintro ⟨rfl, hr, hs, r, rest, hport, hlate, hpending⟩
    rw [step_of_busy hr hs, awaitTx_of_breach hport (answersPending_eq_false_iff.2 hpending)
      (Bool.eq_false_iff.2 (mt answersAbandoned_iff.1 hlate))]
  case refused =>
    rcases step_next_or_breach s with ⟨t, hnext⟩ | ⟨hstop, _⟩
    · cases hrefused.symm.trans hnext
    · cases hrefused.symm.trans hstop

end Sys2Proof.Machine
end

section
/-! PROOFS of the statements on the invariant of the block: the reset state and the inputs meet it, every step
keeps it (R24, R26, R30, R34, R93, R97), and what follows from it (R114, R171). -/

namespace Sys2Proof.Machine

/-! ### Legal responses (R93, R94) -/

/-- A status word outside BUSY, with a payload only when the result is OK, is a legal response. -/
theorem Response.legal_statusWord {result : ResultCode} {st : Lifecycle}
    {payload : List ResponseWord} (hst : st ≠ .busy) (hpayload : result = .ok ∨ payload = []) :
    Response.legal ⟨statusWord result st, payload⟩ = true := by
  have hread := readStatus_eq_some_iff.2 ⟨(rfl : statusWord result st = _), hst⟩
  simp only [Response.legal, hread]
  rcases hpayload with rfl | rfl
  · rfl
  · cases result <;> rfl

/-! ### The invariant over each operation -/

section
variable {s : State} (hinv : Inv s)
include hinv

/-- The invariant does not speak of what waits on the input ports. -/
theorem Inv.set_inputs (cmds : List CommandWord) (answers : List TxResp) (kind : ResetIn) :
    Inv { s with cmdPort := cmds, txPort := answers, resetIn := kind } :=
  { hinv with }

theorem Inv.pending_eq_none (hs : s.state ≠ .busy) : s.pending = none := by
  rw [← Option.not_isSome_iff_eq_none, ← hinv.pendingBusy]
  exact hs

theorem Inv.respond {result : ResultCode} {payload : List ResponseWord} (hs : s.state ≠ .busy)
    (hpayload : result = .ok ∨ payload = []) : Inv (respond result payload s) :=
  { hinv with
    runBegan := ⟨hinv.runBegan.1.trans (by simp), hinv.runBegan.2⟩
    responsesLegal := by
      rw [respond_responses, List.forall_mem_append, List.forall_mem_singleton]
      exact ⟨hinv.responsesLegal, Response.legal_statusWord hs hpayload⟩ }

theorem Inv.construct {v : VariantCode} {l : LineId} {c : Count} {p : Profile}
    (hs : s.state = .uninit) (hrow : supportedRow v = some p) (hc : c ≤ s.maxLeds) :
    Inv { allocate c (latchConfig v l c (latchProfile p s)) with state := .ready } :=
  have hpending : s.pending = none := hinv.pending_eq_none (by simp [hs])
  { hinv with
    uninitNull := nofun
    latchedRow := fun _ => hrow
    capacity := hc
    pixForm := Memory.wf_clearBelow hinv.pixForm _
    pixExtent := Memory.extent_clearBelow hinv.pixExtent _
    pendingBusy := by simp [hpending]
    busyFrame := nofun }

theorem Inv.pixWrite {i : Count} (px : Pixel) (hi : i < s.ledCount) :
    Inv (pixWrite i.toNat px s) :=
  have hextent : i.toNat < s.maxLeds.toNat :=
    Nat.lt_of_lt_of_le (BitVec.lt_def.1 hi) (BitVec.le_def.1 hinv.capacity)
  { hinv with
    pixForm := Memory.wf_write hinv.pixForm _ _
    pixExtent := Memory.extent_write hinv.pixExtent hextent _ }

theorem Inv.txIssue (hs : s.state = .ready) (hn : s.ledCount ≠ 0) :
    Inv (txIssue .update s.line true ((encodeFrame s).map Pulse.descriptor)
      { s with state := .busy }) :=
  { hinv with
    uninitNull := nofun
    latchedRow := fun _ => hinv.latchedRow (by simp [hs])
    pendingBusy := by simp
    pendingNewest := by simp
    busyFrame := fun _ => hn
    abandonedSent := fun n hlate => by
      have hsent := (hinv.abandonedSent n hlate).1
      simp
      omega
    runBegan := ⟨hinv.runBegan.1, hinv.runBegan.2.trans (by simp)⟩
    requestsLegal := by
      simp only [txIssue_txReqs, List.forall_mem_append, List.forall_mem_singleton, List.length_map,
        encodeFrame_length, ne_eq, List.map_eq_nil_iff]
      exact ⟨hinv.requestsLegal, trivial, encodeFrame_ne_nil s hn, Nat.dvd_mul_right _ _⟩ }

theorem Inv.txFinish (ok : Bool) (hs : s.state = .busy) : Inv (txFinish ok s) :=
  have hready : Inv { s with state := .ready, pending := none } :=
    { hinv with
      uninitNull := nofun
      latchedRow := fun _ => hinv.latchedRow (by simp [hs])
      pendingBusy := by simp
      pendingNewest := nofun
      busyFrame := nofun
      abandonedSent := fun n hlate => ⟨(hinv.abandonedSent n hlate).1, nofun⟩ }
  hready.respond nofun (.inr rfl)

theorem Inv.forget_abandoned (n : Nat) : Inv { s with abandoned := s.abandoned.erase n } :=
  { hinv with
    abandonedSent := fun m hm => hinv.abandonedSent m (List.mem_of_mem_erase hm)
    abandonedOnce := hinv.abandonedOnce.erase n }

/-- The request a reset abandons was sent, and was not abandoned before (R232). -/
theorem Inv.pending_sent {p : Pending} (hp : p ∈ s.pending) :
    p.request < s.txReqs.length ∧ p.request ∉ s.abandoned := by
  refine ⟨?_, fun hlate => (hinv.abandonedSent _ hlate).2 p hp rfl⟩
  have hnewest := (hinv.pendingNewest p hp).2
  omega

theorem Inv.resetEvent : Inv (resetEvent s) :=
  have hsent : ∀ n ∈ s.abandoned ++ s.pending.toList.map (·.request), n < s.txReqs.length := by
    simp only [List.forall_mem_append, List.forall_mem_map, Option.mem_toList]
    exact ⟨fun n hlate => (hinv.abandonedSent n hlate).1, fun p hp => (hinv.pending_sent hp).1⟩
  have honce : (s.abandoned ++ s.pending.toList.map (·.request)).Nodup := by
    rcases hpending : s.pending with _ | p
    · simpa using hinv.abandonedOnce
    · simpa using List.Nodup.concat (hinv.pending_sent hpending).2 hinv.abandonedOnce
  { hinv with
    uninitNull := fun _ => ⟨rfl, rfl, rfl, rfl⟩
    latchedRow := fun hs => absurd rfl hs
    capacity := BitVec.le_def.2 (Nat.zero_le _)
    pendingBusy := by simp
    pendingNewest := nofun
    busyFrame := nofun
    abandonedSent := fun n hlate => ⟨hsent n hlate, nofun⟩
    abandonedOnce := honce
    runBegan := ⟨le_rfl, le_rfl⟩ }

end

/-! ### The invariant over a step -/

theorem inv_of_awaitTx {s t : State} (hinv : Inv s) (hs : s.state = .busy)
    (h : awaitTx s = .next t) : Inv t := by
  rcases awaitTx_cases h with ⟨_, rfl⟩ | ⟨r, rest, _, ⟨_, rfl⟩ | ⟨_, _, rfl⟩⟩
  · exact hinv
  · exact (hinv.set_inputs s.cmdPort rest s.resetIn).txFinish r.ok hs
  · exact (hinv.set_inputs s.cmdPort rest s.resetIn).forget_abandoned r.request

theorem WordEffect.inv {d : Except Reserved Instr} {s t : State} (h : WordEffect d s t)
    (hinv : Inv s) (hs : s.state ≠ .busy) : Inv t := by
  cases h with
  | answered result payload hpayload => exact hinv.respond hs hpayload
  | constructed _ huninit hrow hc => exact (hinv.construct huninit hrow hc).respond nofun (.inl rfl)
  | pixelWritten _ _ hi => exact (hinv.pixWrite _ hi).respond hs (.inl rfl)
  | frameSent _ hready hn => exact hinv.txIssue hready hn

theorem inv_of_takeCommand {s t : State} (hinv : Inv s) (hs : s.state ≠ .busy)
    (h : takeCommand s = .next t) : Inv t := by
  rcases takeCommand_wordEffect h with ⟨_, rfl⟩ | ⟨_, rest, _, heffect⟩
  · exact hinv
  · exact heffect.inv (hinv.set_inputs rest s.txPort s.resetIn) hs

/-- Settles O48: a reset, the wait and a word taken each keep the invariant, operation by operation. -/
theorem everyStepKeepsTheInvariant : Obligations.EveryStepKeepsTheInvariant := by
  intro s t hinv hstep
  rcases step_cases hstep with ⟨_, rfl⟩ | ⟨_, hs, hwait⟩ | ⟨_, hs, htake⟩
  · exact (hinv.set_inputs _ s.txPort .released).resetEvent
  · exact inv_of_awaitTx hinv hs hwait
  · exact inv_of_takeCommand hinv hs htake

/-! ### The reset state and the inputs -/

/-- Settles O47: nothing is constructed, listed, sent or awaited in the reset state. -/
theorem resetMeetsTheInvariant : Obligations.ResetMeetsTheInvariant :=
  ⟨{ uninitNull := fun _ => ⟨rfl, rfl, rfl, rfl⟩
     latchedRow := fun hs => absurd rfl hs
     capacity := BitVec.le_def.2 (Nat.zero_le _)
     pixForm := reset_pix_wf
     pixExtent := nofun
     pendingBusy := by decide
     pendingNewest := nofun
     busyFrame := nofun
     abandonedSent := nofun
     abandonedOnce := .nil
     runBegan := ⟨le_rfl, le_rfl⟩
     responsesLegal := nofun
     requestsLegal := nofun },
   { onlyToRequests := nofun
     onceEach := .nil }⟩

/-- Settles O49: each input changes an input port alone. -/
theorem inputsKeepTheInvariant : Obligations.InputsKeepTheInvariant :=
  fun s hinv => ⟨fun _ => hinv.set_inputs _ s.txPort s.resetIn,
    fun _ => hinv.set_inputs s.cmdPort _ s.resetIn, hinv.set_inputs s.cmdPort s.txPort⟩

/-! ### What reaches the encoder (R114) -/

/-- The one step that sends a request is the taking of an UPDATE in READY, of at least one LED. -/
theorem step_sends_cases {s t : State} (h : step s = .next t) :
    t.txReqs = s.txReqs ∨ (s.state = .ready ∧ s.ledCount ≠ 0 ∧
      t.txReqs = s.txReqs ++ [⟨s.line, true, (encodeFrame s).map Pulse.descriptor⟩]) := by
  rcases step_cases h with ⟨_, rfl⟩ | ⟨_, _, hwait⟩ | ⟨_, _, htake⟩
  · exact .inl rfl
  · rcases awaitTx_cases hwait with ⟨_, rfl⟩ | ⟨_, _, _, ⟨_, rfl⟩ | ⟨_, _, rfl⟩⟩ <;> exact .inl rfl
  · rcases takeCommand_wordEffect htake with ⟨_, rfl⟩ | ⟨_, _, _, heffect⟩
    · exact .inl rfl
    · cases heffect with
      | frameSent _ hs hn => exact .inr ⟨hs, hn, rfl⟩
      | _ => exact .inl rfl

/-- Settles O40: a request is sent in READY, where the invariant has the row of a supported variant. -/
theorem nullProfileNeverReachesTheEncoder : Obligations.NullProfileNeverReachesTheEncoder := by
  intro s t hinv hstep hsent
  rcases step_sends_cases hstep with hsilent | ⟨hs, hn, hreqs⟩
  · exact absurd hsilent hsent
  · have hrow : supportedRow s.variant = some s.profile := hinv.latchedRow (by simp [hs])
    refine ⟨(supportedRow_eq_some.1 hrow).1, supportedRow_bytes hrow, hn, _, hreqs, ?_⟩
    rw [List.length_map, encodeFrame_length]

/-! ### The adapter's contract (R171) -/

/-- An answer waiting behind another is to another request. -/
theorem AdapterHonest.ne_head {s : State} (hhonest : AdapterHonest s) {r r' : TxResp}
    {rest : List TxResp} (hport : s.txPort = r :: rest) (hr' : r' ∈ rest) :
    r'.request ≠ r.request := by
  have honce := hhonest.onceEach
  rw [hport, List.map_cons, List.nodup_cons] at honce
  exact fun heq => honce.1 (heq ▸ List.mem_map_of_mem hr')

/-- The contract is kept by a step that leaves answers on the port which are to requests it left pending or
abandoned. -/
theorem AdapterHonest.of_sublist {s t : State} (hhonest : AdapterHonest s)
    (hsub : t.txPort.Sublist s.txPort)
    (hto : ∀ r ∈ t.txPort, answersPending r s = true ∨ r.request ∈ s.abandoned →
      answersPending r t = true ∨ r.request ∈ t.abandoned) : AdapterHonest t where
  onlyToRequests r hr := by
    have h := hhonest.onlyToRequests r (hsub.subset hr)
    rw [answersAbandoned_iff] at h ⊢
    exact hto r hr h
  onceEach := hhonest.onceEach.sublist (hsub.map _)

theorem AdapterHonest.takeReset {s : State} (hhonest : AdapterHonest s) :
    AdapterHonest (takeReset s) :=
  hhonest.of_sublist (List.Sublist.refl _) fun r _ h => .inr <| by
    show r.request ∈ s.abandoned ++ s.pending.toList.map (·.request)
    rw [List.mem_append, List.mem_map]
    rcases h with hp | hlate
    · obtain ⟨p, hp, heq⟩ := answersPending_iff.1 hp
      exact .inr ⟨p, Option.mem_toList.2 hp, heq⟩
    · exact .inl hlate

/-- The wait takes an answer off the port, and what it forgets is the request of that answer alone. -/
theorem adapterHonest_of_awaitTx {s t : State} (hhonest : AdapterHonest s)
    (h : awaitTx s = .next t) : AdapterHonest t := by
  rcases awaitTx_cases h with ⟨_, rfl⟩ | ⟨r, rest, hport, hanswer⟩
  · exact hhonest
  have hsub : rest.Sublist s.txPort := hport ▸ List.sublist_cons_self r rest
  rcases hanswer with ⟨hp, rfl⟩ | ⟨_, _, rfl⟩
  · refine hhonest.of_sublist hsub fun r' hr' hto => .inr (hto.resolve_left fun hp' => ?_)
    obtain ⟨p, hp, heq⟩ := answersPending_iff.1 hp
    obtain ⟨p', hp', heq'⟩ := answersPending_iff.1 hp'
    cases Option.mem_unique hp hp'
    exact hhonest.ne_head hport hr' (heq'.symm.trans heq)
  · exact hhonest.of_sublist hsub fun r' hr' hto =>
      hto.imp_right fun hlate => (List.mem_erase_of_ne (hhonest.ne_head hport hr')).2 hlate

/-- Outside BUSY every answer waiting is late, and taking a word leaves it so. -/
theorem adapterHonest_of_takeCommand {s t : State} (hhonest : AdapterHonest s)
    (hpending : s.pending = none) (h : takeCommand s = .next t) : AdapterHonest t := by
  obtain ⟨hport, hlate⟩ : t.txPort = s.txPort ∧ t.abandoned = s.abandoned := by
    rcases takeCommand_wordEffect h with ⟨_, rfl⟩ | ⟨_, _, _, heffect⟩
    · exact ⟨rfl, rfl⟩
    · cases heffect <;> exact ⟨rfl, rfl⟩
  refine hhonest.of_sublist (hport ▸ List.Sublist.refl _) fun r _ hto => .inr ?_
  rw [hlate]
  refine hto.resolve_left fun hp => ?_
  simp [answersPending, hpending] at hp

theorem adapterHonest_of_step {s t : State} (hinv : Inv s) (hhonest : AdapterHonest s)
    (h : step s = .next t) : AdapterHonest t := by
  rcases step_cases h with ⟨_, rfl⟩ | ⟨_, _, hwait⟩ | ⟨_, hs, htake⟩
  · exact hhonest.takeReset
  · exact adapterHonest_of_awaitTx hhonest hwait
  · exact adapterHonest_of_takeCommand hhonest (hinv.pending_eq_none hs) htake

/-- Settles O50: the one stop is an answer that breaks the contract, and a step keeps the contract as it
keeps the invariant. -/
theorem honestAdapterNeverStopsTheBlock : Obligations.HonestAdapterNeverStopsTheBlock := by
  intro s hinv hhonest
  rcases step_next_or_breach s with ⟨t, hnext⟩ | ⟨_, _, _, r, rest, hport, hp, ha⟩
  · exact ⟨t, hnext, everyStepKeepsTheInvariant s t hinv hnext,
      adapterHonest_of_step hinv hhonest hnext⟩
  · have hto := hhonest.onlyToRequests r (hport ▸ List.mem_cons_self)
    simp [hp, ha] at hto

end Sys2Proof.Machine
end

section
/-! PROOFS of the statements on runs of any length: every UPDATE sends the same frame (R167), an UPDATE ends
after the late answers (R232), and the result of a run starts at its reset (R241). -/

namespace Sys2Proof.Machine

/-- A run of `k + 1` steps that goes on is a step and a run of `k` steps. -/
theorem exists_step_of_run_succ {k : Nat} {s t : State}
    (h : Sys2Proof.core.run (k + 1) s = .next t) :
    ∃ u, step s = .next u ∧ Sys2Proof.core.run k u = .next t := by
  simp only [Host.Core.run] at h
  split at h
  · next u hstep => exact ⟨u, hstep, h⟩
  · cases h
  · cases h

/-! ### The frame over a run without SET_PIXEL (R167) -/

/-- What keeps the frame as it is: no reset, a controller that exists, and no SET_PIXEL waiting. -/
structure FrameHeld (s : State) : Prop where
  released : s.resetIn = .released
  constructed : s.state ≠ .uninit
  noSetPixel : ∀ w ∈ s.cmdPort, ∀ i r g b, decode w ≠ .ok (.setPixel i r g b)

/-- Such a block goes on so, with the same frame. -/
theorem FrameHeld.step {s t : State} (hheld : FrameHeld s) (h : step s = .next t) :
    FrameHeld t ∧ encodeFrame t = encodeFrame s := by
  obtain ⟨hr, hs, hport⟩ := hheld
  rcases step_cases h with ⟨hasserted, _⟩ | ⟨_, _, hwait⟩ | ⟨_, _, htake⟩
  · exact absurd hr hasserted
  · rcases awaitTx_cases hwait with ⟨_, rfl⟩ | ⟨_, _, _, ⟨_, rfl⟩ | ⟨_, _, rfl⟩⟩
    · exact ⟨⟨hr, hs, hport⟩, rfl⟩
    · exact ⟨⟨hr, nofun, hport⟩, encodeFrame_congr rfl rfl rfl⟩
    · exact ⟨⟨hr, hs, hport⟩, encodeFrame_congr rfl rfl rfl⟩
  · rcases takeCommand_wordEffect htake with ⟨_, rfl⟩ | ⟨w, rest, hcons, heffect⟩
    · exact ⟨⟨hr, hs, hport⟩, rfl⟩
    · rw [hcons, List.forall_mem_cons] at hport
      cases heffect with
      | answered _ _ _ => exact ⟨⟨hr, hs, hport.2⟩, encodeFrame_congr rfl rfl rfl⟩
      | constructed _ huninit _ _ => exact absurd huninit hs
      | pixelWritten hd _ _ => exact absurd hd (hport.1 _ _ _ _)
      | frameSent _ _ _ => exact ⟨⟨hr, nofun, hport.2⟩, encodeFrame_congr rfl rfl rfl⟩

/-- The requests it sends over a run are of that frame. -/
theorem FrameHeld.run {k : Nat} {s t : State} (hheld : FrameHeld s)
    (h : Sys2Proof.core.run k s = .next t) :
    ∃ qs, t.txReqs = s.txReqs ++ qs ∧
      ∀ q ∈ qs, q.pulses = (encodeFrame s).map Pulse.descriptor := by
  induction k generalizing s with
  | zero => cases h; exact ⟨[], by simp⟩
  | succ k ih =>
    obtain ⟨u, hstep, hrun⟩ := exists_step_of_run_succ h
    obtain ⟨hheld', hframe⟩ := hheld.step hstep
    obtain ⟨qs, hreqs, hqs⟩ := ih hheld' hrun
    rw [hframe] at hqs
    rcases step_sends_cases hstep with hsilent | ⟨_, _, hsent⟩
    · exact ⟨qs, by rw [hreqs, hsilent], hqs⟩
    · exact ⟨⟨s.line, true, (encodeFrame s).map Pulse.descriptor⟩ :: qs,
        by rw [hreqs, hsent, ← List.append_cons], List.forall_mem_cons.2 ⟨rfl, hqs⟩⟩

/-- Settles O39: a constructed block with no SET_PIXEL waiting holds its frame over the whole run. -/
theorem runWithoutSetPixelSendsOneFrame : Obligations.RunWithoutSetPixelSendsOneFrame :=
  fun _ _ _ hr hs hport hrun => FrameHeld.run ⟨hr, hs, hport⟩ hrun

/-! ### An UPDATE and the answers in front of its own (R232) -/

/-- Settles O51, by induction on the late answers: each costs one step that changes neither the pending request
nor what the later ones answer, and the step after them ends the UPDATE. -/
theorem updateEndsAfterTheLateAnswers : Obligations.UpdateEndsAfterTheLateAnswers := by
  intro s late n ok hr hs hpending hport honce hlate
  induction late generalizing s with
  | nil =>
    have hp : answersPending ⟨n, ok⟩ s = true :=
      answersPending_iff.2 ⟨_, hpending, rfl⟩
    have hstep : step s = .next (txFinish ok { s with txPort := [] }) := by
      rw [step_of_busy hr hs, awaitTx_of_answersPending hport hp]
    exact ⟨_, run_succ_of_step 0 hstep, rfl, rfl, rfl, rfl, rfl, rfl, rfl, rfl⟩
  | cons r late ih =>
    obtain ⟨⟨hmem, hother⟩, hrest⟩ := List.forall_mem_cons.1 hlate
    obtain ⟨hne, honce⟩ := List.nodup_cons.1 honce
    have hp : answersPending r s = false :=
      answersPending_eq_false_iff.2 (by simpa [hpending] using hother.symm)
    have hstep := (step_of_busy hr hs).trans
      (awaitTx_of_answersAbandoned hport hp (answersAbandoned_iff.2 hmem))
    have hstill : ∀ r' ∈ late, r'.request ∈ s.abandoned.erase r.request ∧ r'.request ≠ n := by
      intro r' hr'
      obtain ⟨hmem', hother'⟩ := hrest r' hr'
      have hdistinct : r'.request ≠ r.request := fun heq =>
        hne (List.mem_map.2 ⟨r', hr', heq⟩)
      exact ⟨(List.mem_erase_of_ne hdistinct).2 hmem', hother'⟩
    obtain ⟨t, hrun, hend⟩ := ih
      { s with txPort := late ++ [⟨n, ok⟩], abandoned := s.abandoned.erase r.request }
      hr hs hpending rfl honce hstill
    exact ⟨t, (run_succ_of_step _ hstep).trans hrun, hend⟩

/-! ### The records of a run (R241) -/

/-- A run from a released block only adds to the records of what was sent, and does not move where it
began. -/
theorem run_records {k : Nat} {s t : State} (hr : s.resetIn = .released)
    (h : Sys2Proof.core.run k s = .next t) :
    t.responsesBefore = s.responsesBefore ∧ t.txReqsBefore = s.txReqsBefore ∧
      (∃ rs, t.responses = s.responses ++ rs) ∧ ∃ qs, t.txReqs = s.txReqs ++ qs := by
  induction k generalizing s with
  | zero => cases h; exact ⟨rfl, rfl, ⟨[], by simp⟩, ⟨[], by simp⟩⟩
  | succ k ih =>
    obtain ⟨u, hstep, hrun⟩ := exists_step_of_run_succ h
    obtain ⟨hreset, hresps, hreqs, ⟨rs, hrs⟩, ⟨qs, hqs⟩⟩ := step_records hr hstep
    obtain ⟨hresps', hreqs', ⟨rs', hrs'⟩, ⟨qs', hqs'⟩⟩ := ih hreset hrun
    exact ⟨hresps'.trans hresps, hreqs'.trans hreqs,
      ⟨rs ++ rs', by rw [hrs', hrs, List.append_assoc]⟩,
      ⟨qs ++ qs', by rw [hqs', hqs, List.append_assoc]⟩⟩

/-- Right after a reset the observable result is that of nothing sent and nothing constructed (R230). -/
theorem observe_takeReset (s : State) :
    observe (takeReset s) = ⟨[], [], .uninit, 0, 0, 0, ⟨0, 0, 0, 0, 0, 0⟩, []⟩ := by
  have hresponses : (observe (takeReset s)).responses = [] := List.drop_length
  have hreqs : (observe (takeReset s)).txReqs = [] := List.drop_length
  exact congrArg₂ (Observation.mk · · .uninit 0 0 0 ⟨0, 0, 0, 0, 0, 0⟩ []) hresponses hreqs

/-- Settles O52: the reset sets where the run began to the end of the records, and the run adds to them
there. -/
theorem resultOfARunStartsAtItsReset : Obligations.ResultOfARunStartsAtItsReset := by
  intro k s s₀ t hr hstep
  obtain rfl : takeReset s = s₀ := by simpa [step_of_reset hr] using hstep
  refine ⟨observe_takeReset s, fun hrun => ?_⟩
  obtain ⟨hresps, hreqs, ⟨rs, hrs⟩, ⟨qs, hqs⟩⟩ := run_records rfl hrun
  refine ⟨?_, ?_, rfl, rfl, rfl, rfl, rfl, visiblePixels_length t,
    fun i hi => visiblePixels_getElem? hi⟩
  · show t.responses = s.responses ++ t.responses.drop t.responsesBefore
    rw [hresps, hrs]
    exact congrArg (s.responses ++ ·) List.drop_left.symm
  · show t.txReqs = s.txReqs ++ t.txReqs.drop t.txReqsBefore
    rw [hreqs, hqs]
    exact congrArg (s.txReqs ++ ·) List.drop_left.symm

end Sys2Proof.Machine
end

section
/-! PROOFS of the statements on single commands: SET_PIXEL and what GET_PIXEL then reads (R74, R140, R142),
UPDATE from its start to its response (R165, R171), and what each command leaves alone (R36, R68). -/

namespace Sys2Proof.Machine

/-! ### SET_PIXEL (R142) -/

/-- The channels of a packed entry are what was packed (R30, R141). -/
theorem packPixel_channels (r g b : Byte) :
    red (packPixel r g b) = r ∧ green (packPixel r g b) = g ∧ blue (packPixel r g b) = b :=
  ⟨(BitVec.extractLsb'_append_eq_of_le (by decide)).trans BitVec.extractLsb'_append_eq_left,
    (BitVec.extractLsb'_append_eq_of_le (by decide)).trans BitVec.extractLsb'_append_eq_right,
    BitVec.extractLsb'_append_eq_right⟩

section
variable {s : State} {i : Count} (r g b : Byte)

theorem exec_setPixel_of_lt (hs : s.state = .ready) (hi : i.toNat < s.ledCount.toNat) :
    exec (.setPixel i r g b) s =
      .next (respond .ok [] (pixWrite i.toNat (packPixel r g b) s)) := by
  simp only [exec, execSetPixel, hs, indexInRange_iff.2 hi, ne_eq, not_true_eq_false, if_false]

theorem exec_setPixel_of_ne_ready (i : Count) (hs : s.state ≠ .ready) :
    exec (.setPixel i r g b) s = .next (respond .illegalState [] s) := by
  simp only [exec, execSetPixel, if_pos hs, raiseError_eq]

theorem exec_setPixel_of_count_le (hs : s.state = .ready) (hi : s.ledCount ≤ i) :
    exec (.setPixel i r g b) s = .next (respond .indexOutOfRange [] s) := by
  have hrange : ¬ indexInRange i s = true :=
    fun h => Nat.not_lt.2 (BitVec.le_def.1 hi) (indexInRange_iff.1 h)
  simp only [exec, execSetPixel, hs, ne_eq, not_true_eq_false, if_false, if_pos hrange,
    raiseError_eq]

end

/-- Settles O22: one equation per outcome; the buffer written reads as the laws of its storage say. -/
theorem setPixelWritesOnePixel : Obligations.SetPixelWritesOnePixel := by
  refine fun s i r g b => ⟨fun hs hwf hi => ?written, fun hs => ?illegal, fun hs hi => ?outOfRange⟩
  case written =>
    refine ⟨s.pix.write i.toNat (packPixel r g b), ?_, ?_, ?_, ?_,
      fun j hj => Memory.read_write_other _ _ _ _ hj, Memory.wf_write hwf _ _⟩
    · rw [exec_setPixel_of_lt r g b hs (BitVec.lt_def.1 hi), respond, pixWrite_state, hs]
      rfl
    all_goals rw [Memory.read_write_same _ hwf]
    · exact (packPixel_channels r g b).1
    · exact (packPixel_channels r g b).2.1
    · exact (packPixel_channels r g b).2.2
  case illegal => rw [exec_setPixel_of_ne_ready r g b i (by simp [hs]), respond, hs]
  case outOfRange => rw [exec_setPixel_of_count_le r g b hs hi, respond, hs]

/-! ### GET_PIXEL after a command that writes (R74, R140) -/

/-- The payload word of a packed entry (R94). -/
theorem packPixel_setWidth (r g b : Byte) :
    (packPixel r g b).setWidth 32 = 0#8 ++ r ++ g ++ b := by
  apply BitVec.eq_of_toNat_eq
  simp only [pixel_setWidth_eq_append, packPixel, toNat_append_add]
  omega

/-- In READY a GET_PIXEL below `LED_COUNT` answers OK with what the entry reads as (R143). -/
theorem exec_getPixel_answers {s : State} {i : Count} {px : Pixel} (hs : s.state = .ready)
    (hi : i < s.ledCount) (hread : pixRead s i.toNat = px) :
    ∃ t, exec (.getPixel i) s = .next t ∧
      t.responses = s.responses ++ [⟨statusWord .ok .ready, [px.setWidth 32]⟩] :=
  ⟨_, exec_getPixel_of_lt hs (BitVec.lt_def.1 hi), by rw [respond_responses, hs, hread]⟩

/-- Settles O24: the entry written reads as written, and another as before. -/
theorem getPixelReturnsTheLastSetPixel : Obligations.GetPixelReturnsTheLastSetPixel := by
  intro s i j r g b hs hwf hi hj
  have hexec := exec_setPixel_of_lt r g b hs (BitVec.lt_def.1 hi)
  by_cases hji : j = i
  · subst hji
    obtain ⟨u, hget, hresp⟩ := exec_getPixel_answers
      (s := respond .ok [] (pixWrite j.toNat (packPixel r g b) s)) hs hj
      (pixRead_pixWrite_same s hwf _ _)
    exact ⟨_, u, hexec, hget, by rw [hresp, if_pos rfl, packPixel_setWidth]⟩
  · obtain ⟨u, hget, hresp⟩ := exec_getPixel_answers
      (s := respond .ok [] (pixWrite i.toNat (packPixel r g b) s)) hs hj
      (pixRead_pixWrite_other s _ _ _ (mt BitVec.eq_of_toNat_eq hji))
    exact ⟨_, u, hexec, hget, by rw [hresp, if_neg hji]⟩

/-- Settles O26: CONSTRUCT's allocation zeroes the entries below the count. -/
theorem pixelsAreZeroAfterConstruct : Obligations.PixelsAreZeroAfterConstruct := by
  intro s v l c i hs hv hc hi
  obtain ⟨p, hrow⟩ := exists_supportedRow hv
  have hread : pixRead (allocate c (latchConfig v l c (latchProfile p s))) i.toNat = 0 :=
    (pixRead_allocate _ _ _).trans (if_pos (BitVec.lt_def.1 hi))
  obtain ⟨u, hget, hresp⟩ := exec_getPixel_answers (s := respond .ok []
    { allocate c (latchConfig v l c (latchProfile p s)) with state := .ready }) rfl hi hread
  exact ⟨_, u, exec_construct_of_le_capacity l hs hrow hc, hget, hresp⟩

/-! ### UPDATE (R165) -/

theorem exec_update_of_ledCount {s : State} (hs : s.state = .ready) (hn : s.ledCount ≠ 0) :
    exec .update s = .next (txIssue .update s.line true ((encodeFrame s).map Pulse.descriptor)
      { s with state := .busy }) := by
  obtain ⟨t, hexec⟩ := exec_next .update s
  rw [hexec, eq_txIssue_of_exec_update hs hn hexec]

theorem exec_update_of_no_leds {s : State} (hs : s.state = .ready) (hn : s.ledCount = 0) :
    exec .update s = .next (respond .ok [] s) := by
  simp only [exec, execUpdate, hs, ne_eq, not_true_eq_false, if_false, encodeFrame_of_zero s hn]

theorem exec_update_of_ne_ready {s : State} (hs : s.state ≠ .ready) :
    exec .update s = .next (respond .illegalState [] s) := by
  simp only [exec, execUpdate, if_pos hs, raiseError_eq]

/-- Settles O37: the request is issued in BUSY. -/
theorem updateIssuesOneRequest : Obligations.UpdateIssuesOneRequest :=
  fun _ hs hn => exec_update_of_ledCount hs hn

/-- The answer to the pending request, alone on the port, ends the UPDATE (R165). -/
theorem step_of_only_answer {s : State} {r : TxResp} (hr : s.resetIn = .released)
    (hs : s.state = .busy) (hport : s.txPort = [r])
    (hpending : ∃ p ∈ s.pending, p.request = r.request) :
    step s = .next (txFinish r.ok { s with txPort := [] }) := by
  rw [step_of_busy hr hs, awaitTx_of_answersPending hport (answersPending_iff.2 hpending)]

/-- Settles O38: the request is issued in BUSY, where no answer keeps the block, and its answer ends the wait. -/
theorem updateTransmitsOnceAndAnswers : Obligations.UpdateTransmitsOnceAndAnswers := by
  refine ⟨fun s ok hs hn hr hport hpending => ?transmitted, fun s hs hn => ?empty, fun s hs => ?illegal⟩
  case transmitted =>
    refine ⟨_, exec_update_of_ledCount hs hn, rfl, rfl, rfl, rfl, rfl, ?length, ?waits, ?ends⟩
    case length => rw [List.length_map, encodeFrame_length]
    case waits => exact noAnswerKeepsTheBlockBusy _ hr rfl hport
    case ends =>
      have hreleased : (adapterAnswer ⟨s.txReqs.length, ok⟩ (txIssue .update s.line true
        ((encodeFrame s).map Pulse.descriptor) { s with state := .busy })).resetIn = .released := hr
      rw [step_of_only_answer hreleased rfl (congrArg (· ++ [_]) hport) ⟨_, rfl, rfl⟩]
      simp [txFinish, respond, adapterAnswer, txIssue, hs, hpending, hport]
  case empty => rw [exec_update_of_no_leds hs hn, respond, hs]
  case illegal => rw [exec_update_of_ne_ready (by simp [hs]), respond, hs]

/-! ### What the commands leave alone (R36, R68) -/

/-- What a reading command answers does not depend on the responses sent before it, and is all it does. -/
theorem exec_reading {i : Instr} {n : Count} {v : VariantCode}
    (hi : i ∈ [Instr.getPixel n, Instr.lookupProfile v, Instr.getConfig]) (s : State) :
    ∃ result payload, ∀ sent, exec i { s with responses := sent } =
      .next (respond result payload { s with responses := sent }) := by
  simp only [List.mem_cons, List.not_mem_nil, or_false] at hi
  rcases hi with rfl | rfl | rfl
  · by_cases hs : s.state = .ready
    · by_cases hn : n < s.ledCount
      · exact ⟨.ok, [(pixRead s n.toNat).setWidth 32], fun _ => exec_getPixel_of_lt hs (BitVec.lt_def.1 hn)⟩
      · exact ⟨_, _, fun _ => exec_getPixel_of_count_le hs (BitVec.not_lt.1 hn)⟩
    · exact ⟨_, _, fun _ => exec_getPixel_of_ne_ready n hs⟩
  · rcases hrow : timingRow v with _ | p
    · exact ⟨_, _, fun _ => exec_lookupProfile_of_no_row _ hrow⟩
    · exact ⟨_, _, fun _ => exec_lookupProfile_of_row _ hrow⟩
  · exact ⟨.ok, s.configWords, fun _ => exec_getConfig _⟩

/-- Settles O41: the command repeated meets a state that differs in the responses sent alone. -/
theorem readingCommandsHaveNoSideEffect : Obligations.ReadingCommandsHaveNoSideEffect := by
  intro s t n v i hi hexec
  obtain ⟨result, payload, hanswer⟩ := exec_reading hi s
  obtain rfl : respond result payload s = t := by
    simpa using (hanswer s.responses).symm.trans hexec
  refine ⟨_, _, rfl, hanswer _, ?_⟩
  simp [respond]

/-- Settles O42: the errors of each command only answer, and its success writes what its operations write. -/
theorem writingCommandsLeaveTheRestAlone : Obligations.WritingCommandsLeaveTheRestAlone := by
  refine ⟨fun s t i r g b hexec => ?setPixel, fun s t v l c hexec => ?construct,
    fun s t hexec => ?update⟩
  case setPixel =>
    rcases execSetPixel_cases hexec with ⟨_, rfl⟩ | ⟨_, _, rfl⟩ | ⟨_, _, rfl⟩
    · exact ⟨rfl, fun _ _ => rfl⟩
    · exact ⟨rfl, fun _ _ => rfl⟩
    · exact ⟨rfl, fun _ hj => pixRead_pixWrite_other s _ _ _ hj⟩
  case construct =>
    obtain ⟨hcmd, htx, hreset, hmax, habandoned, hresps, hreqs⟩ := exec_ports hexec
    rcases execConstruct_cases hexec with
      ⟨_, rfl⟩ | ⟨_, _, rfl⟩ | ⟨_, _, _, rfl⟩ | ⟨p, _, _, _, rfl⟩
    · exact ⟨rfl, rfl, rfl, rfl, rfl, rfl, rfl, rfl, rfl, fun _ _ => rfl⟩
    · exact ⟨rfl, rfl, rfl, rfl, rfl, rfl, rfl, rfl, rfl, fun _ _ => rfl⟩
    · exact ⟨rfl, rfl, rfl, rfl, rfl, rfl, rfl, rfl, rfl, fun _ _ => rfl⟩
    · exact ⟨rfl, rfl, rfl, rfl, rfl, rfl, rfl, rfl, rfl,
        fun j hj => (pixRead_allocate _ c j).trans (if_neg (Nat.not_lt.2 hj))⟩
  case update =>
    rcases execUpdate_cases hexec with ⟨_, rfl⟩ | ⟨_, _, rfl⟩ | ⟨_, _, rfl⟩ <;>
      exact ⟨rfl, fun _ => rfl⟩

end Sys2Proof.Machine
end

section
/-! PROOFS of the statements on the whole frame (`42_frame_encoder.md`): each pulse from the shape file (R29,
R164), the patched one (R168), and the time the frame lasts (R240). -/

namespace Sys2Proof.Machine

/-! ### Each pulse of a frame (R164) -/

/-- A shape is the pulse of its bit, patched when it is the last (R29, R163). -/
theorem shape_shapeIndex (s : State) (isLast bit : Bool) :
    shape s (shapeIndex isLast bit) =
      if isLast then ⟨(bitPulse s bit).high, s.resetGap⟩ else bitPulse s bit := by
  cases isLast <;> cases bit <;> rfl

/-- The patch, pulse by pulse (R163). -/
theorem patch_getElem? (s : State) (seq : List Pulse) (m : Nat) :
    (patch s seq)[m]? =
      seq[m]?.map fun p => if m + 1 = seq.length then ⟨p.high, s.resetGap⟩ else p := by
  rcases List.eq_nil_or_concat' seq with rfl | ⟨init, p, rfl⟩
  · rfl
  rw [patch_append, List.length_append, List.length_singleton]
  rcases Nat.lt_trichotomy m init.length with hlt | rfl | hgt
  · simp [List.getElem?_append_left hlt, hlt.ne]
  · simp
  · have hout : ∀ q : Pulse, (init ++ [q])[m]? = none := fun q => by simp; omega
    rw [hout, hout, Option.map_none]

/-- Byte `m / 8` of a serialized frame: the channel in wire order of pixel `m / 24` (R161). -/
def frameByte (s : State) (m : Nat) : Byte :=
  if m % 24 / 8 = 0 then green (pixRead s (m / 24))
  else if m % 24 / 8 = 1 then red (pixRead s (m / 24))
  else blue (pixRead s (m / 24))

theorem serialize_visiblePixels_getElem? {s : State} {m : Nat} (hm : m < 24 * s.ledCount.toNat) :
    (serialize (visiblePixels s))[m / 8]? = some (frameByte s m) := by
  have hplace : m / 8 = 3 * (m / 24) + m % 24 / 8 := by omega
  have hr : m % 24 / 8 < 3 := by omega
  rw [hplace, serialize_getElem? _ _ hr, visiblePixels_getElem? (by omega), Option.bind_some,
    frameByte]
  generalize m % 24 / 8 = r at hr ⊢
  match r, hr with
  | 0, _ | 1, _ | 2, _ => rfl

/-- The bits of a byte in the order they are sent (R162). -/
def byteBits (b : Byte) : List Bool := (List.range 8).map fun k => b.getLsbD (7 - k)

/-- The bits of a frame in the order they are sent. -/
def frameBits (s : State) : List Bool := (serialize (visiblePixels s)).flatMap byteBits

theorem expand_eq_map_bitPulse (s : State) (bs : List Byte) :
    expand s bs = (bs.flatMap byteBits).map (bitPulse s) := by
  rw [expand, List.map_flatMap]
  rfl

theorem byteBits_length (b : Byte) : (byteBits b).length = 8 := by
  rw [byteBits, List.length_map, List.length_range]

theorem byteBits_getElem? (b : Byte) {k : Nat} (hk : k < 8) :
    (byteBits b)[k]? = some (b.getLsbD (7 - k)) := by
  rw [byteBits, List.getElem?_map, List.getElem?_range hk, Option.map_some]

/-- Bit `m` of a frame is bit `7 - m % 8` of byte `m / 8` (R162). -/
theorem frameBits_getElem? {s : State} {m : Nat} (hm : m < 24 * s.ledCount.toNat) :
    (frameBits s)[m]? = some ((frameByte s m).getLsbD (7 - m % 8)) := by
  have hk : m % 8 < 8 := Nat.mod_lt _ (by decide)
  have hbit := getElem?_flatMap_of_length byteBits_length (serialize (visiblePixels s)) (m / 8) hk
  rwa [Nat.div_add_mod, serialize_visiblePixels_getElem? hm, Option.bind_some,
    byteBits_getElem? _ hk] at hbit

theorem encodeFrame_eq_patch (s : State) :
    encodeFrame s = patch s ((frameBits s).map (bitPulse s)) :=
  congrArg (patch s) (expand_eq_map_bitPulse s _)

theorem frameBits_length (s : State) : (frameBits s).length = 24 * s.ledCount.toNat := by
  have hlength := encodeFrame_length s
  rwa [encodeFrame_eq_patch, patch_length, List.length_map] at hlength

theorem encodeFrame_getElem? {s : State} {m : Nat} (hm : m < 24 * s.ledCount.toNat) :
    (encodeFrame s)[m]? = some (shape s
      (shapeIndex (m + 1 = 24 * s.ledCount.toNat) ((frameByte s m).getLsbD (7 - m % 8)))) := by
  rw [encodeFrame_eq_patch, patch_getElem?, List.getElem?_map, frameBits_getElem? hm,
    List.length_map, frameBits_length, Option.map_some, Option.map_some, shape_shapeIndex]
  simp only [decide_eq_true_eq]

/-- Settles O33: both lists have length `24n`, and agree pulse by pulse. -/
theorem frameIsTheShapeOfEachBit : Obligations.FrameIsTheShapeOfEachBit := by
  intro s
  refine List.ext_getElem? fun m => ?_
  rw [List.getElem?_map]
  rcases Nat.lt_or_ge m (24 * s.ledCount.toNat) with hm | hm
  · rw [encodeFrame_getElem? hm, List.getElem?_range hm]
    rfl
  · rw [List.getElem?_eq_none (by rwa [encodeFrame_length]),
      List.getElem?_eq_none (by rwa [List.length_range]), Option.map_none]

/-! ### The patched pulse (R168) -/

theorem ledCount_pos {s : State} (h : s.ledCount ≠ 0) : 0 < s.ledCount.toNat :=
  Nat.pos_of_ne_zero fun hzero => h (BitVec.eq_of_toNat_eq hzero)

/-- The last byte of a frame is the last pixel's blue. -/
theorem frameByte_last {s : State} (h : s.ledCount ≠ 0) :
    frameByte s (24 * s.ledCount.toNat - 1) = blue (pixRead s (s.ledCount.toNat - 1)) := by
  have hpos := ledCount_pos h
  have hbyte : (24 * s.ledCount.toNat - 1) % 24 / 8 = 2 := by omega
  have hpixel : (24 * s.ledCount.toNat - 1) / 24 = s.ledCount.toNat - 1 := by omega
  rw [frameByte, hbyte, hpixel]
  rfl

/-- In no row of a supported variant is a low-duration equal to the `reset_gap` (R110). -/
theorem supportedRow_low_ne_resetGap : ∀ v, ∀ p ∈ supportedRow v,
    p.t0Low ≠ p.resetGap ∧ p.t1Low ≠ p.resetGap := by decide

/-- Settles O32: the last pulse of the frame is the shape `{1, bit}` of the last bit, and the patch leaves the
earlier ones. -/
theorem lastPulseCarriesTheResetGap : Obligations.LastPulseCarriesTheResetGap := by
  refine ⟨fun s hn => ⟨?last, fun k hk => ?earlier⟩, supportedRow_low_ne_resetGap⟩
  case last =>
    have hpos := ledCount_pos hn
    have hbit : 7 - (24 * s.ledCount.toNat - 1) % 8 = 0 := by omega
    have hlast : 24 * s.ledCount.toNat - 1 + 1 = 24 * s.ledCount.toNat := by omega
    rw [encodeFrame_getElem? (by omega), frameByte_last hn, hbit, shape_shapeIndex, bitPulse_eq,
      if_pos (decide_eq_true hlast), apply_ite Pulse.high]
  case earlier =>
    refine patch_getElem?_of_lt s _ k ?_
    rw [expand_length, serialize_length, visiblePixels_length]
    omega

/-! ### The time of a frame (R240) -/

/-- The time of unpatched pulses, from the number of zero and of one bits. -/
theorem frameTime_map_bitPulse (s : State) (bits : List Bool) :
    frameTime (bits.map (bitPulse s)) =
      bits.count false * (s.t0h.toNat + s.t0l.toNat) +
        bits.count true * (s.t1h.toNat + s.t1l.toNat) := by
  induction bits with
  | nil => simp [frameTime]
  | cons bit rest ih =>
    have htime : frameTime ((bit :: rest).map (bitPulse s)) =
      (bitPulse s bit).high.toNat + (bitPulse s bit).low.toNat + frameTime (rest.map (bitPulse s)) :=
        rfl
    rw [htime, ih, bitPulse_eq]
    cases bit with
    | false =>
      rw [List.count_cons_self, List.count_cons_of_ne (by decide), if_neg (by decide)]
      ring
    | true =>
      rw [List.count_cons_self, List.count_cons_of_ne (by decide), if_pos rfl]
      ring

theorem frameTime_append (l l' : List Pulse) :
    frameTime (l ++ l') = frameTime l + frameTime l' := by
  simp [frameTime]

/-- The patch replaces the low-duration of the last pulse by `reset_gap`. -/
theorem frameTime_patch_append (s : State) (seq : List Pulse) (p : Pulse) :
    frameTime (patch s (seq ++ [p])) + p.low.toNat =
      frameTime (seq ++ [p]) + s.resetGap.toNat := by
  rw [patch_append, frameTime_append, frameTime_append]
  simp only [frameTime, List.map_singleton, List.sum_singleton]
  omega

/-- A frame of at least one LED ends with bit 0 of the last pixel's blue. -/
theorem frameBits_eq_append {s : State} (h : s.ledCount ≠ 0) :
    ∃ init, frameBits s = init ++ [(blue (pixRead s (s.ledCount.toNat - 1))).getLsbD 0] := by
  have hpos := ledCount_pos h
  have hbit : 7 - (24 * s.ledCount.toNat - 1) % 8 = 0 := by omega
  rw [← List.getLast?_eq_some_iff, List.getLast?_eq_getElem?, frameBits_length,
    frameBits_getElem? (by omega), frameByte_last h, hbit]

/-- Settles O35: the time of the pulses before the patch from the bits counted, and what the patch replaces
at the last bit. -/
theorem frameTimeIsTheSumOfItsBits : Obligations.FrameTimeIsTheSumOfItsBits := by
  refine ⟨fun s hn => ⟨?time, ?count⟩, rfl⟩
  case time =>
    obtain ⟨init, hbits⟩ := frameBits_eq_append hn
    have htime := frameTime_map_bitPulse s (frameBits s)
    have hpatch := frameTime_patch_append s (init.map (bitPulse s))
      (bitPulse s ((blue (pixRead s (s.ledCount.toNat - 1))).getLsbD 0))
    rw [← List.map_singleton (f := bitPulse s), ← List.map_append, ← hbits, ← encodeFrame_eq_patch,
      htime, bitPulse_eq, apply_ite Pulse.low, apply_ite BitVec.toNat] at hpatch
    exact hpatch
  case count => exact (List.count_false_add_count_true _).trans (frameBits_length s)

end Sys2Proof.Machine
end
